-- ==== Sys2Proof/Word.lean ====
section
/-! DEFINITION. The word types of the slice: what the manual treats as bits (00 Conventions, R12). -/
namespace Sys2Proof

/-- A 32-bit register or image word (00, Registers). -/
abbrev Word := BitVec 32
/-- A byte. -/
abbrev Byte := BitVec 8
/-- The 128 bytes of one line; byte i is bits [8i+7:8i] (R66). -/
abbrev Line := BitVec 1024
/-- A flit: 128-bit header in bits [127:0], 512-bit body in bits [639:128] (02, The flit). -/
abbrev Flit := BitVec 640
/-- Word parity of a flit, PAR[19:0] (R37). -/
abbrev FlitPar := BitVec 20
/-- The 64-byte body of a flit. -/
abbrev Body := BitVec 512
/-- A 52-bit physical address (R12). -/
abbrev Addr := BitVec 52
/-- An agent ID or a slice ID (R12). -/
abbrev Id12 := BitVec 12

end Sys2Proof
end

