-- ==== Sys2Proof/Syntax.lean ====
section
/-! DEFINITION. The commands of the slice: one constructor per row of spec/opcode_table.json, with what arrives at the pins
in that step, or which of the things that are ready happens (assumption log 1). -/
namespace Sys2Proof

/-- The parity bits the register master drives with an access: SL_RG_APAR and SL_RG_WPAR (R73). -/
structure Par where
  apar : Bool
  wpar : Bool
  deriving DecidableEq, Repr

/-- An access of the register port: SL_RG_WR and the parity bits with it (R73, R464, R466). -/
structure RgAcc where
  wr  : Bool
  par : Par
  deriving DecidableEq, Repr

/-- A direction of travel on the die ring, so an in-link or an out-link of the station (R54). -/
inductive Dir where
  | east
  | west
  deriving DecidableEq, Repr

/-- The two near ports (R62). -/
inductive Near where
  | a
  | b
  deriving DecidableEq, Repr

/-- The three sources of requests, and so the ports of arrival (R20, R473). -/
inductive Src where
  | ring
  | near (n : Near)
  deriving DecidableEq, Repr

/-- A line: its space bit and ADDR[51:7] (R12, R43). -/
structure LineId where
  space : Bool
  ln    : BitVec 45
  deriving DecidableEq, Repr

/-- What the SECDED check of a read reports for the words of one line's slot (R206, R207, R209). -/
inductive Ecc where
  | clean
  /-- A single-bit error in data word `w` of the frame (R207). -/
  | ceData (w : BitVec 4)
  /-- A single-bit error in the tag word (R209). -/
  | ceTag
  /-- A single-bit error in a metadata word (R209). -/
  | ceMeta
  /-- An uncorrectable data word (R207). -/
  | ueData (w : BitVec 4) (synd : Byte)
  /-- An uncorrectable metadata word (R209). -/
  | ueMeta (synd : Byte)
  /-- An uncorrectable tag word (R209). -/
  | ueTag (synd : Byte)
  deriving DecidableEq, Repr

/-- What the SECDED check of a snoop-filter entry, a line-buffer entry or a frame-table entry reports (R412, R413). -/
inductive Store where
  | clean
  | ce
  /-- Uncorrectable data, accumulator or count word. -/
  | ueData (synd : Byte)
  /-- Uncorrectable place or address word. -/
  | uePlace (synd : Byte)
  deriving DecidableEq, Repr

/-- The internal buses whose parity is checked apart from the bus of a bank access: bank to knead unit, response injection, payload
arrival, and the memory port's read-data and write-data FIFOs (R398). -/
inductive Bus where
  | knead
  | response
  | payload
  | memRead
  | memWrite
  deriving DecidableEq, Repr

/-- An upset that lies where no command of its own reads: whichever access meets it next reports it (assumption log 1). -/
inductive Upset where
  /-- A word of line-buffer entry `i` (R398, R413). -/
  | lb (i : Nat) (e : Store)
  /-- The next transfer on the bus takes `n` replays, 5 + m standing for a fourth replay that failed on the words of mask m (R401). -/
  | bus (b : Bus) (n : Nat)
  deriving DecidableEq, Repr

/-- What the checks of one step report: the array read, the snoop-filter lookup, and how many replays the parity of the
internal bus took, 5 + m standing for a fourth replay that failed on the flit words of mask m (R401). -/
structure Chk where
  ecc : Ecc
  /-- Further words of the arrays that upsets have struck by now: frame key, slot, and what the check of whichever read meets them
  next will report. -/
  more : List (Nat × (Nat × Ecc))
  sf  : Store
  lb  : Store
  bus : Nat
  /-- Upsets of stores and buses that a later access meets. -/
  ups : List Upset
  deriving DecidableEq, Repr

/-- No check reports an error. -/
def Chk.ok : Chk := ⟨.clean, [], .clean, .clean, 0, []⟩

/-- What the residue check of a knead operation reports (R349). -/
inductive Resid where
  | pass
  /-- A mismatch that passed on the rerun. -/
  | fixed
  /-- A mismatch whose rerun failed too. -/
  | failed
  deriving DecidableEq, Repr

/-- What the scan checks report for a row (R372 to R374). -/
inductive ScanSeen where
  | agree
  /-- The duplicate run differed; bit k of `again` tells that the rerun's two runs of the kth row held differed too. -/
  | mismatch (again : BitVec 16)
  /-- A plausibility check failed; `again` as above. -/
  | implausible (again : BitVec 16)
  deriving DecidableEq, Repr

/-- One store visited by a scrub step and what its SECDED check found there (R417). -/
inductive ScrubFind where
  /-- A frame of a bank: the slot whose word the finding concerns. -/
  | frame (bank : BitVec 4) (slot : BitVec 2) (e : Ecc)
  /-- Way `way` of the visited snoop-filter set. -/
  | sf (way : BitVec 4) (e : Store)
  | frameTable (e : Store)
  | lineBuffer (e : Store)
  deriving DecidableEq, Repr

/-- What LANECHK observed on one receive lane (R92). -/
structure LaneObs where
  sigdet   : Bool
  /-- At least 16 level transitions in the window. -/
  active   : Bool
  allLow   : Bool
  allHigh  : Bool
  /-- The lane number received, when a sync field was. -/
  num      : Option (BitVec 3)
  /-- The sync field arrived as its level image. -/
  inverted : Bool
  deriving DecidableEq, Repr

/-- An instrument of the IEEE 1687 network (R79). -/
inductive Instrument where
  | bondChain
  | selfTest
  | stateCapture
  deriving DecidableEq, Repr

/-- Why a link fails with LNK_TIMEOUT is the phase that overran (R91): the phases with a bound of their own. -/
inductive TrainPhase where
  | capex
  | align
  | whole
  deriving DecidableEq, Repr

/-- What a control frame of the saddle link carries (R89). The manual names the fields and not their bit positions, so they
arrive decoded, beside the frame's slot bits that the CRC covers. -/
structure CtlFields where
  /-- The lane markers, by logical lane: the first 64 bits of each. -/
  marks   : List (BitVec 64)
  /-- Credits returned since the previous control frame: REQ, SNP, RSP, DAT, 10 bits each. -/
  credits : BitVec 40
  /-- Lanes the sender receives well. -/
  good    : Byte
  /-- Lanes in fault. -/
  fault   : Byte
  /-- The lane group and width a retrain request names; valid in TYPE 0b11. -/
  newSet  : Byte
  width   : BitVec 2
  deriving DecidableEq, Repr

/-- What the FEC of a received frame found (R85, R100, R120). -/
structure FecFound where
  /-- A codeword could not be corrected. -/
  bad  : Bool
  /-- Corrected symbols, one pulse each. -/
  corr : Nat
  deriving DecidableEq, Repr

/-- A flit of the transmit queue whose word parity fails as it is framed (R87, R405): its place among the frame's flits, the replays
that its reread took, 5 standing for a fourth that failed, and the words that still fail then. -/
structure Reread where
  pos  : Nat
  n    : Nat
  mask : FlitPar
  deriving DecidableEq, Repr

/-- The commands. -/
inductive Instr where
  -- control plane (05)
  | load (p : Par)
  | imageWord (p : Par) (d : Word)
  | imageCheckDone
  | imageApplyDone
  | initializingDone (fails : List (BitVec 4 × BitVec 10))
  | abort (p : Par)
  | quiesce (p : Par)
  | quiescedReached
  | resume (p : Par)
  | epoch (p : Par)
  | epochDone
  | drain (p : Par)
  | drainedReached
  | unshape (p : Par)
  -- register port (02, 08, 14, 15, 16)
  | declare (p : Par) (agent : Id12) (np : BitVec 2)
  | release (p : Par) (agent : Id12)
  | retrain (p : Par) (hold : Bool)
  | holdDown (p : Par) (hold : Bool)
  | freeze (p : Par) (v : Bool)
  | snap (p : Par) (frz : Bool) (clr : Bool)
  | clr (p : Par) (frz : Bool)
  | registerWrite (p : RgAcc) (a : BitVec 14) (d : Word) (hw : Word)
  | patternStoreWrite (p : Par) (i : BitVec 11) (d : Word)
  | powcycLoRead (apar : Bool)
  | pwrELoRead (apar : Bool) (c : BitVec 4)
  | pmcCntLoRead (apar : Bool) (i : Nat)
  | pmcULoRead (apar : Bool) (i : Nat)
  | screeRetire (apar : Bool)
  -- test access (02)
  | ijtagAccess
  | bypass (code : BitVec 4)
  | tapReset
  -- resets and clocks (04, 05)
  | ringResetAssert (tst : Bool)
  | ringResetDeassert (slice : Id12) (die : BitVec 4) (edge : Bool) (itag : BitVec 64)
  | coreResetAssert
  | coreResetExit
  | mpResetAssert
  | mpResetDeassert
  | phyResetAssert
  | phyResetDeassert
  | mckStop
  | pckStop
  -- power (15)
  | droopAssert
  | droopLift
  | throttleTaken (l : BitVec 3)
  | freqReqHigh (recent : Bool)
  | freqDeferEnd
  | freqPrepDone
  | freqReqLow
  | energyReport
  | counterWrap (i : Nat)
  -- ring station and near ports (02, 13)
  | ringFlitArrival (d : Dir) (f : Flit) (par : FlitPar) (lat : List (BitVec 16))
  | insertionTimeout (d : Dir)
  | ringInject (d : Dir) (lat : List (BitVec 16))
  | nearPortReceive (n : Near) (fs : List (Flit × FlitPar))
  | nearPortCredit (n : Near) (crd : Byte)
  | nearPortTransmit (n : Near) (lat : List (BitVec 16))
  | portGrant (p : BitVec 3) (d : Dir)
  | requestDecode (src : Src) (bus : Nat)
  | payloadArrival (src : Src)
  | payloadTimeout (src : Src)
  -- home engine (07 to 11)
  | readShared (l : LineId) (c : Chk)
  | readUnique (l : LineId) (c : Chk)
  | readOnce (l : LineId) (c : Chk)
  | cleanUnique (l : LineId) (c : Chk)
  | writeBack (l : LineId) (c : Chk)
  | evictClean (l : LineId) (c : Chk)
  | writeUnique (l : LineId) (c : Chk)
  | finalWrite (l : LineId)
  | moveReceive (l : LineId)
  | zeroLine (l : LineId) (c : Chk)
  | atomic (l : LineId) (c : Chk)
  | reduce (l : LineId) (c : Chk)
  | scan
  | invRange
  | invRangeLine (i : Nat) (g : BitVec 2) (c : Chk)
  | digest
  | digestLineRead (g : BitVec 2) (c : Chk)
  | pin
  | unpin
  -- snoop answers and entry events (07, 08)
  | snpRspI
  | snpRspS
  | snpRspSFwd
  | snpRspOFwd
  | snpRspIFwd
  | snpRspIFwdD
  | snpRspSData
  | snpRspIData
  | snpSwept
  | snoopResend (e : BitVec 9)
  | deadAgentTimeout (e : BitVec 9)
  | reclaimWalkStart
  | reclaimWalkVisit
  -- miss registers and memory port (02, 06, 14)
  | missIssue (tag : Byte)
  | missRegisterRetry (e : BitVec 9)
  | memCmdTransfer
  | memWriteDataTransfer
  | memReadData (tag : Byte) (data : Line) (pois crv : Bool) (crust : Word) (par : BitVec 34)
  | memWriteCompletion (tag : BitVec 6) (err : Bool) (par : Bool)
  | memReadTimeout (tag : Byte)
  | memWriteTimeout (tag : BitVec 6)
  | placementResume (e : BitVec 9)
  -- arrays, walks, scrub (06, 10, 14)
  | correctedRewrite (bank : BitVec 4)
  | errorWindowEnd
  | scrubStep (fs : List ScrubFind)
  | wayCloseVisit (bank : BitVec 4)
  | pinWalkVisit (bank : BitVec 4)
  | unpinWalkVisit (bank : BitVec 4)
  | demotionStep (c : BitVec 4)
  | thrashWindowEnd
  | epochSfWalkVisit
  | epochTagWalkVisit (bank : BitVec 4)
  | moveSend (e : BitVec 9)
  | moveComplete
  | moveResend (e : BitVec 9)
  -- knead unit and scans (11, 12)
  | kneadCommit (e : BitVec 9) (r : Resid)
  | lineBufferWriteback (i : BitVec 6)
  | scanColumnStart (col : BitVec 2)
  | scanRow (col : BitVec 2) (seen : ScanSeen) (kc : Chk) (vc : Chk)
  | scanComplete
  -- landing groups (09)
  | landingFlushTimer (g : BitVec 6)
  | tallyAddComplete
  | tallyReadComplete
  | tallySubComplete
  | tallyPoll (g : BitVec 6)
  | tallyRetry (g : BitVec 6)
  | tallyTimeout (g : BitVec 6)
  -- QoS (13)
  | qosWindowEnd
  | bankGroupIdle (g : BitVec 2)
  | rampLevelStep (g : BitVec 2)
  -- proof patterns (14)
  | patternRunDue
  | patternRun (wrong : Bool)
  -- saddle link (03)
  | detectEnd (fesense : BitVec 16)
  | ts1Recognised
  | noPartnerTimeout
  | lanechkEnd (obs : List LaneObs)
  | capexDone (pcap : Word) (pgood : Byte) (maxr : BitVec 2) (pmaxr : BitVec 2)
  | phyRateReady
  | phyTimeout
  | prbsEnd (errs : List Nat) (ppass : Byte)
  | alignDone
  | trainPhaseTimeout (ph : TrainPhase)
  | saddleFrameReceive (hdr : BitVec 40) (slots : List Flit) (ctl : CtlFields) (fec : FecFound)
  | saddleFrameSend (bad : List Reread)
  | saddleSignalLoss (lane : BitVec 3)
  | saddleSymbolThreshold (lane : BitVec 3)
  | retrainTimeout
  -- alive toggles and instruments (02, 04)
  | mckAlive
  | pckAlive
  | ijtagInstrumentAccess (ins : Instrument) (update : Bool)
  deriving DecidableEq, Repr

end Sys2Proof
end

