-- ==== Sys2Proof/Config.lean ====
section
/-! DEFINITION. What the block version fixes, and the free values: constants without a body, of which nothing can be proved. -/
namespace Sys2Proof.Config

/-- BLK_ID of version 4.1 (R1, R3). -/
def blkId : Word := 0x00040001#32

/-- Which of the two neighbouring floats exp takes for an argument (R364: the manual bounds the error of exp by one unit in
the last place and does not give its bits; assumption log 7). Only ever used to choose between the float at or below the exact
value and the one above it. -/
opaque freeExpUp : BitVec 32 → Bool

/-- The value an instrument of the IEEE 1687 network without a layout in the manual returns on a capture (R79; log 9). -/
opaque freeCapture : Nat → BitVec 64

/-- A sticky count of R341 that has passed its 24 bits, as a function of the true count (the manual states no value; log 10). -/
opaque freeSticky : Nat → BitVec 24

/-- The random bits of a proof-pattern run that rounds with SR (R423 gives the run private registers and no seed for them;
log 11). -/
opaque freePatSr : Nat → BitVec 16

/-- Which of several counters that wrap in one CCK cycle PMC_STAT.FCNT records (R455 states one counter; log 12). -/
opaque freeWrap : Nat → Nat

/-- SL_RG_RDATA of a read that ends with a parity error (R75 states no data; log 13). -/
opaque freeRdata : Nat → Word

/-- Whether a pulse meets the one before it unacknowledged at a pulse crossing, for the crossing and the number of the pulse: the
clocks' phases decide it (R120; log 67). -/
opaque freeOverrun : Nat → Nat → Bool

/-- The slot bits of a control frame, for its lane markers, credit counts, lane report and retrain fields: R89 names the fields and
gives no positions (log 87). -/
opaque freeCtlSlots : List (BitVec 64) → BitVec 40 → BitVec 16 → BitVec 10 → List Flit

/-- KND_LAST.CAUSE of a request that set KND_RES.FIXED (argument 0) or KND_ERR.NOALLOC (argument 1), for which R353 lists no code
(log 58). -/
opaque freeCause : Nat → BitVec 3

/-- The 64-bit sync field of TS1 and TS2 blocks, which R92 does not give (log 87). -/
opaque freeSync : BitVec 64

/-- The positions of the capability fields and the lane-good mask in a TS2 block, which R92 does not give: the bits they fill (log
87). -/
opaque freeTs2 : Word → Byte → BitVec 320

/-- 320 bits on a transmit lane that the manual does not give, by lane and PCK word: lanes enabled in RATESET, and the first 31 bits of
the PRBS31 sequence (R83, R91; log 87). -/
opaque freeLane : Nat → Nat → BitVec 320

/-- Whether the east neighbour on the ring reaches a slice over fewer hops than the west neighbour, for this slice, a message that goes to
a slice (false: to the die's saddle slice) and that slice: R394 takes the shorter direction and the manual gives no ring positions
(log 43). -/
opaque freeWest : Id12 → Bool → Id12 → Bool

/-- Stall cycles on the memory side before a transfer, for its number among the transfers: the memory's clock and its ready decide them
(R120, R451; log 67). -/
opaque freeStall : Nat → Nat

end Sys2Proof.Config
end

