-- ==== Sys2Proof/Machine/State.lean ====
section
/-! DEFINITION. The state of the slice: every register, queue, table, array and pin the manual gives it, grouped by chapter,
and the queue of waiting commands. Plain data. INVENTORY.md lists each field with its rule and reset value. -/
namespace Sys2Proof.Machine

/-- Why the machine stops. No command of the table raises one: the one behaviour the manual calls undefined as a whole
(R111, a root outside its limits) is reached by no command. -/
inductive Fault where
  /-- A root clock outside R111. Raised by no command of the table; safe. -/
  | rootOutOfRange
  deriving DecidableEq, Repr

/-- Why a command has no meaning. -/
inductive Refusal where
  /-- The command is not modelled. Raised by a refused arm of Dispatch; safe. -/
  | notModelled (mnemonic : String)
  deriving DecidableEq, Repr

/-! ### Transactions and requests (02) -/

/-- The name of a transaction: source type, SRC and TXN of its opening request (R40). `sty` true is a slice. -/
structure TxName where
  sty : Bool
  src : Id12
  txn : BitVec 12
  deriving DecidableEq, Repr

/-- A flit held in a receive queue. `bad` tells that a word other than the header failed parity (R402). -/
structure QFlit where
  f   : Flit
  bad : Bool
  deriving DecidableEq, Repr

/-- A request the front end has decoded (R43), with the port by which it arrived (R20). -/
structure Req where
  name  : TxName
  src   : Src
  opc   : BitVec 5
  space : Bool
  cls   : BitVec 4
  scope : BitVec 3
  vol   : Bool
  rel   : Bool
  acq   : Bool
  luse  : Bool
  stepm : Bool
  ext   : Bool
  land  : Bool
  lfin  : Bool
  lgrp  : BitVec 6
  plen  : BitVec 4
  crv   : Bool
  addr  : Addr
  crust : Word
  esrc  : BitVec 26
  lcnt  : Word
  kop   : Byte
  kfmt  : BitVec 4
  len   : Word
  mask  : BitVec 128
  /-- POWCYC when the request reached its bank's queue (R385). -/
  since : BitVec 64
  /-- It found a full waiter list: the wait is counted, and it waits for the line (R204). -/
  full  : Bool
  deriving DecidableEq, Repr

/-- One payload flit held in its reserved entry (R58, R478). -/
structure PayFlit where
  fidx  : BitVec 4
  data  : Body
  pois  : Bool
  dkind : BitVec 3
  bad   : Bool
  deriving DecidableEq, Repr

/-- The payload held for one transaction. -/
structure Payload where
  name  : TxName
  flits : List PayFlit
  deriving DecidableEq, Repr

/-- A count kept per transaction: entries reserved, or late payload flits still to come. -/
structure TxCount where
  name : TxName
  n    : Nat
  deriving DecidableEq, Repr

/-- A completion the home is to send (R52, R233). -/
structure Comp where
  r      : Req
  rtype  : BitVec 5
  rcode  : BitVec 4
  pois   : Bool
  grant  : BitVec 3
  scopew : Bool
  rval   : BitVec 64
  /-- The line data that follows a COMP_DATA, with its crust. -/
  data   : Option (Line × Word)
  deriving DecidableEq, Repr

/-! ### Ring station's reset domain and pins (02, 04) -/

structure Ring where
  rsRst     : Bool
  coreRst   : Bool
  mpRst     : Bool
  spRst     : Bool
  tapRst    : Bool
  tstMode   : Bool
  tieSlice  : Id12
  tieDie    : BitVec 4
  tieEdge   : Bool
  tieItag   : BitVec 64
  powcyc    : BitVec 64
  powHi     : Word
  rstcause  : BitVec 4
  mckRun    : Bool
  pckRun    : Bool
  mpUp      : Bool
  mpNeedRst : Bool
  xerr      : BitVec 6
  xirqen    : BitVec 6
  bondFail  : BitVec 16
  bondDone  : Bool
  bondBad   : List (BitVec 4 × BitVec 10)
  /-- Pulses that have reached each pulse crossing: MCK, PCK, TCK, RP (R120). -/
  pulses    : List Nat
  deriving DecidableEq, Repr

/-! ### Control plane and shape image (05) -/

/-- The states of R140. -/
inductive SlState where
  | off
  | shapeless
  | loading
  | initializing
  | linking
  | running
  | quiescing
  | quiesced
  | draining
  | drained
  | fenced
  deriving DecidableEq, Repr

/-- The phases of a load (R167, R169). -/
inductive LoadPhase where
  | none
  | receiving
  | checking
  | applying
  deriving DecidableEq, Repr

structure Ctl where
  st         : SlState
  busy       : Bool
  epoch      : Bool
  /-- The state LOADING left (R151); `off` outside LOADING. -/
  lorig      : SlState
  phase      : LoadPhase
  /-- Image words received, the last first. -/
  img        : List Word
  imgCnt     : BitVec 15
  leCode     : BitVec 5
  leSect     : BitVec 16
  leOff      : BitVec 14
  imgser     : Word
  prof       : Word
  /-- The governed sections in force that a profile gives, ARRAY in bit 0 to ENERGY in bit 7 (ST_PROF.USED). -/
  gov        : Byte
  rejOp      : BitVec 4
  rejState   : BitVec 4
  rejSrc     : Bool
  rejCnt     : BitVec 16
  insvc      : BitVec 16
  drnBuf     : BitVec 24
  drnFr      : Byte
  irq        : BitVec 4
  irqen      : BitVec 4
  initResume : Bool
  linkChanged : Bool
  /-- Loads rejected (R169). -/
  loadRej    : Nat
  deriving DecidableEq, Repr

/-- A last-use drop region (R214). -/
structure Region where
  en    : Bool
  first : Addr
  last  : Addr
  deriving DecidableEq, Repr

/-- The ARRAY section (R214). -/
structure ArrCfg where
  insvc   : BitVec 16
  comp    : Bool
  seed    : BitVec 16
  cairnw  : BitVec 4
  bufw    : BitVec 4
  wayoff  : List (BitVec 16)
  regions : List Region
  deriving DecidableEq, Repr

/-- A buffer-space window: first and last loaf, class (R302). -/
structure Window where
  first : BitVec 43
  last  : BitVec 43
  cls   : BitVec 4
  deriving DecidableEq, Repr

/-- The PIN section (R320). -/
structure PinCfg where
  demrate : BitVec 4
  thrlim  : BitVec 16
  quota   : List (BitVec 18)
  windows : List Window
  deriving DecidableEq, Repr

/-- The KNEAD section (R352). -/
structure KndCfg where
  lanes : List Byte
  seed  : BitVec 16
  deriving DecidableEq, Repr

/-- One class of the QOS section (R380). -/
structure QCls where
  target : BitVec 16
  base   : BitVec 3
  gmen   : Bool
  ports  : BitVec 6
  res    : BitVec 9
  deriving DecidableEq, Repr

/-- The QOS section (R380). -/
structure QosCfg where
  shift   : BitVec 4
  upd     : BitVec 4
  age     : BitVec 5
  iclass  : BitVec 4
  rlEn    : Bool
  rlIdle  : BitVec 4
  rlStart : BitVec 2
  rlStep  : BitVec 4
  cls     : List QCls
  deriving DecidableEq, Repr

/-- The CHECK section (R400). -/
structure ChkCfg where
  level    : BitVec 2
  scrubEn  : Bool
  scrubp   : BitVec 4
  suspmask : Byte
  patEn    : Bool
  pint     : BitVec 5
  parlim   : BitVec 16
  reslim   : BitVec 16
  deriving DecidableEq, Repr

/-- The LINK section (R166): enable, the four register values, the slice die table. -/
structure LinkCfg where
  enable : Bool
  cap    : Word
  cfg    : Word
  fwd    : Word
  phyc   : Word
  dies   : List Word
  deriving DecidableEq, Repr

/-- The ENERGY section (R447). -/
structure EnCfg where
  erptEn : Bool
  erper  : BitVec 5
  coef   : List (BitVec 16)
  deriving DecidableEq, Repr

/-- The shape image in force (R162). -/
structure Cfg where
  arr     : ArrCfg
  compat  : Bool
  mapA    : List Word
  mapB    : List Word
  /-- The previous map, kept from EPOCH until RESUME (R312). -/
  prevMap : Option (List Word)
  pin     : PinCfg
  knd     : KndCfg
  qos     : QosCfg
  chk     : ChkCfg
  link    : LinkCfg
  count   : List (BitVec 16)
  ener    : EnCfg
  deriving DecidableEq, Repr

/-! ### Arrays (06) -/

/-- Frame formats (R180). -/
inductive Fmt where
  | invalid
  | raw
  | half
  | quarter
  | zero
  | rframe
  deriving DecidableEq, Repr

/-- The metadata word of a slot (R181). -/
structure Meta where
  crust  : Word
  d      : Bool
  psn    : Bool
  lu     : Bool
  fit    : BitVec 2
  rsv    : Bool
  rscope : BitVec 3
  kn     : Bool
  deriving DecidableEq, Repr

/-- A slot descriptor (R179) and its metadata word. -/
structure Slot where
  v    : Bool
  enc  : BitVec 2
  lidx : BitVec 2
  mt   : Meta
  deriving DecidableEq, Repr

/-- A frame: its tag word, its slots and its 16 data words (R179, R180). -/
structure Frame where
  tag   : BitVec 35
  space : Bool
  fmt   : Fmt
  slots : List Slot
  pin   : Bool
  data  : Line
  deriving DecidableEq, Repr

/-- A way under self-disable and the next set its visits take (R212). -/
structure Closing where
  way : Nat
  set : Nat
  deriving DecidableEq, Repr

structure Arr where
  /-- Frames that are not Invalid, by (bank × 768 + set) × 16 + way, keys strictly rising. -/
  frames   : List (Nat × Frame)
  lfsr     : List (BitVec 16)
  /-- Corrected-error counts above 0, by bank × 16 + way. -/
  ceCnt    : List (Nat × Nat)
  degraded : BitVec 16
  closing  : List (Option Closing)
  waydis   : List (BitVec 16)
  err      : BitVec 5
  irqen    : BitVec 5
  celast   : Word
  /-- Pending corrected rewrites: frame key and data word (R207). -/
  rewrite  : List (Nat × Nat)
  /-- Words struck by an upset that no read has met: frame key, slot, and what the SECDED check will report (R206 to R209; log 1). -/
  struck   : List (Nat × (Nat × Ecc))
  /-- Loaf locks held: bank, and the line whose placement holds the lock on its loaf (R190). -/
  locks    : List (Nat × LineId)
  /-- Tier-3 placements in the present window, per bank (R306). -/
  thrash   : List Nat
  /-- The array self-test has run: the contents are undefined, and nothing reads them before a reset (R81; log 8). -/
  undef    : Bool
  deriving DecidableEq, Repr

/-! ### Miss registers and memory port (04, 06, 14) -/

/-- Miss-register states other than FREE (R202). -/
inductive MissSt where
  | alloc
  | issued
  | fill
  | reply
  deriving DecidableEq, Repr

structure Miss where
  line    : LineId
  st      : MissSt
  /-- The transient entry the miss belongs to. -/
  ent     : Nat
  waiters : List Req
  reissue : Nat
  cls     : BitVec 4
  /-- Opened by READ_SHARED or READ_ONCE: accepts secondaries (R201). -/
  merge   : Bool
  /-- Place in the order in which memory commands became ready (R471). -/
  ord     : Nat
  deriving DecidableEq, Repr

/-- A command in the memory command FIFO. -/
structure MCmd where
  write : Bool
  addr  : BitVec 45
  tag   : Byte
  cls   : BitVec 4
  deriving DecidableEq, Repr

/-- What caused a memory write, for the conditions that wait on it. -/
inductive Cause where
  | request
  | victim
  | wayClose (bank : Nat)
  | unpin
  | walk
  | drain
  | other
  deriving DecidableEq, Repr

/-- How far a held write has come. -/
inductive WSt where
  | ready
  | fifo
  | sent
  deriving DecidableEq, Repr

/-- A line in the write hold (R127, R404). -/
structure Wr where
  tag    : Nat
  line   : LineId
  data   : Line
  pois   : Bool
  crust  : Word
  cls    : BitVec 4
  /-- Place in the order in which the writes of one line go to memory (R70). -/
  ord    : Nat
  /-- Place in the order in which memory commands became ready (R471). -/
  rdy    : Nat
  /-- Place in the order of first issue, once issued (R128). -/
  iss    : Option Nat
  /-- To be reissued before any other command (R128). -/
  again  : Bool
  st     : WSt
  wdSent : Bool
  errs   : Nat
  comps  : List Comp
  cause  : Cause
  deriving DecidableEq, Repr

/-- A read-data beat that has transferred and waits in the read-data FIFO (R68, R119): tag, line, POIS, CRV, crust, parity. -/
structure RdBeat where
  tag   : Byte
  data  : Line
  pois  : Bool
  crv   : Bool
  crust : Word
  par   : BitVec 34
  deriving DecidableEq, Repr

structure Mp where
  miss    : List (Nat × Miss)
  cmdFifo : List MCmd
  wdFifo  : List Nat
  /-- Read-data FIFO of the crossing, at most 8 entries (R119). -/
  rdFifo  : List RdBeat
  /-- Beats the core has taken out of the FIFO that wait until it may start array work again (R441). -/
  rdWait  : List RdBeat
  hold    : List Wr
  ord     : Nat
  /-- Tags issued before a core reset that have not returned: read tags, write tags (R129). -/
  flushRd : List Nat
  flushWr : List Nat
  /-- Write beats of transferred commands still to be sent after a core reset (R129). -/
  flushWd : List (Nat × (Line × (Bool × Word)))
  /-- Beats and completions discarded for the parity of their tag (R403, R404). -/
  badTags : Nat
  deriving DecidableEq, Repr

/-! ### Snoop filter and home engine (07, 08) -/

/-- A snoop-filter entry (R222). HTR is derived: the line has an open transient entry. -/
structure Sf where
  tag   : Word
  space : Bool
  ov    : Bool
  own   : Id12
  pdv   : BitVec 16
  hdv   : Word
  deriving DecidableEq, Repr

/-- Home transient states (R220). -/
inductive HtSt where
  | snpS
  | snpU
  | mem
  | wb
  | knead
  | binv
  | reclaim
  | move
  deriving DecidableEq, Repr

/-- What a transient entry was opened for. -/
inductive Why where
  | req (r : Req)
  /-- A back-invalidation that frees the snoop-filter entry at the key, for a request of this class (R225, R379). -/
  | binv (key : Nat) (cls : BitVec 4)
  /-- A recall of the epoch walks (R313). -/
  | epoch
  | reclaim (a : Id12)
  /-- A move: sends made so far, waiting to be resent (R315, R317). -/
  | move (sends : Nat) (wait : Bool) (r : Req)
  /-- A line of an INV_RANGE (R477). -/
  | inv (r : Req)
  /-- A line a scan column waits for (R361). -/
  | scan (r : Req)
  /-- A line of the DIGEST in service (R429). -/
  | digest (r : Req)
  deriving DecidableEq, Repr

structure Ht where
  line   : LineId
  st     : HtSt
  why    : Why
  sop    : BitVec 2
  fwd    : Bool
  /-- OWN when the snoop was opened with OV at 1. -/
  own    : Option Id12
  /-- An owner's answer is still expected. -/
  expect : Bool
  /-- The owner's answer accepted. -/
  ans    : Option (BitVec 5)
  /-- The owner answered SNP_RSP_I to a SNP_SHARED: the entry waits for the eviction (R247). -/
  cross  : Bool
  /-- Dies whose sweep is pending, the home die among them. -/
  sweep  : BitVec 16
  /-- Dies whose sweep is complete. -/
  swept  : BitVec 16
  /-- Owner data that has reached the home and is not placed: line, poison. -/
  data   : Option (Line × Bool)
  /-- Placement waits with this victim frame (R194). -/
  vic    : Option Nat
  /-- Line data the home answers with, its poison and its crust, when the line is not held at home. -/
  have_  : Option (Line × (Bool × Word))
  /-- Write tags whose completions the request's completion waits for (R291). -/
  tags   : List Nat
  /-- Its work is done, and it waits for the completions of `tags` with its own completions in `comps` (R236, R291). -/
  tw     : Bool
  comps  : List Comp
  /-- A write of `tags` failed for good (R69). -/
  wbad   : Bool
  /-- Waits for a line-buffer entry (R325). -/
  lbw    : Bool
  /-- A placement of the entry waits for write tags or a loaf lock (R190, R194). -/
  pw     : Bool
  /-- Waits for a loaf lock that another line's placement holds (R190). -/
  lk     : Bool
  /-- Waits for a snoop-filter entry to be freed (R225). -/
  sfw    : Bool
  /-- Waits for a miss register (R204). -/
  mw     : Bool
  /-- Waits to reserve answer entries before its snoop goes out (R221). -/
  sw     : Bool
  /-- Its bank reads and writes wait behind requests that the bank serves first (R32). -/
  bw     : Bool
  /-- Rereads memory under LX12 mode (R291). -/
  reread : Bool
  /-- The dead-agent timer runs (R253). -/
  timer  : Bool
  /-- The entry ends under R254: its request is answered ERR_TIMEOUT. -/
  fail   : Bool
  /-- The epoch walks passed the line: it is acted on when the entry closes (R313). -/
  passed : Bool
  /-- The reclaim walk passed the line (R256). -/
  rclm   : Bool
  deriving DecidableEq, Repr

/-- A row of the dead table (R260). -/
structure Dead where
  agent : Id12
  np    : BitVec 2
  done  : Bool
  valid : Bool
  /-- Sets the walk still visits for this row (R256). -/
  left  : Nat
  /-- Transient entries open at the declaration that have not closed (R256). -/
  opens : List Nat
  deriving DecidableEq, Repr

/-- An INV_RANGE being served: its request, per bank group the offset of the next line to take (LEN when none is left), and
whether a line timed out. -/
structure InvJob where
  r    : Req
  next : List Nat
  bad  : Bool
  /-- A buffer-space line of it lay outside every window (R303). -/
  nowin : Bool
  /-- Write tags whose completions its COMP waits for (R291). -/
  tags : List Nat
  /-- A write of it failed for good: its COMP carries POIS 1 (R69). -/
  pois : Bool
  deriving DecidableEq, Repr

/-- The DIGEST in service (R429). -/
structure DigJob where
  r    : Req
  next : List Nat
  sum  : BitVec 64
  pois : Bool
  /-- A buffer-space line of it lay outside every window (R303). -/
  nowin : Bool
  /-- Write tags whose completions its COMP waits for (R291). -/
  tags : List Nat
  deriving DecidableEq, Repr

structure Home where
  /-- Valid snoop-filter entries by set × 16 + way, keys strictly rising. -/
  sf      : List (Nat × Sf)
  sfLfsr  : BitVec 16
  /-- Open transient entries by index, keys strictly rising. -/
  ht      : List (Nat × Ht)
  /-- Requests waiting at the home engine, oldest first (R27). -/
  q       : List Req
  /-- Range requests and SCANs the front end has decoded and the unit has not taken. -/
  scanQ   : List Req
  invQ    : List Req
  digQ    : List Req
  invs    : List InvJob
  dig     : Option DigJob
  err     : BitVec 4
  irqen   : BitVec 4
  errsrc  : BitVec 15
  deadto  : BitVec 5
  retry   : BitVec 5
  dead    : List Dead
  walk    : Bool
  walkSet : Nat
  toerr   : BitVec 7
  toirqen : BitVec 7
  tolast  : BitVec 18
  poiscnt : Word
  deriving DecidableEq, Repr

/-! ### Ports (02, 13) -/

/-- A message ready at a port arbiter (R388). `link` is set where a rule names the out-link. -/
structure Msg where
  port   : BitVec 3
  cls    : BitVec 4
  vc     : BitVec 2
  flits  : List Flit
  /-- Payload flits that follow a REQ of the slice on the same link (R48). -/
  pay    : List Flit
  link   : Option Dir
  /-- The line whose data the message carries, where it answers with line data (R401). -/
  line   : Option LineId
  /-- The last flit of the message is part of the final response of a sampled request (R382). -/
  sample : Bool
  /-- The core made the message; otherwise the ring station or the link layer passes it on or answers for itself. -/
  own    : Bool
  /-- The flit still lies in the saddle receive buffer (R98, R107). -/
  sad    : Bool
  deriving DecidableEq, Repr

/-- A flit in an injection queue. -/
structure OutFlit where
  f      : Flit
  cls    : BitVec 4
  sample : Bool
  /-- The core made the flit. -/
  own    : Bool
  /-- Words that failed parity when the flit arrived: its PAR is kept with it (R87, R405). -/
  bad    : FlitPar
  /-- POWCYC when the flit entered its queue (R60). -/
  since  : BitVec 64
  deriving DecidableEq, Repr

/-- Injection queues and turn of one out-link or near port (R61, R394, R479). -/
structure Inj where
  req  : List OutFlit
  snp  : List OutFlit
  rsp  : List OutFlit
  dat  : List OutFlit
  /-- The virtual channel whose turn is next. -/
  turn : Nat
  /-- Flits the DAT turn under way has sent (R61, R479). -/
  run  : Nat
  deriving DecidableEq, Repr

/-- The receive side of one source: queues and the entries reserved and held for payload. -/
structure Rx where
  req  : List QFlit
  snp  : List QFlit
  rsp  : List QFlit
  dat  : List QFlit
  resv : List TxCount
  pay  : List Payload
  /-- Payload flits of timed-out requests that may still come (R478). -/
  late : List TxCount
  /-- Payload flits still to come of requests that are already answered; they are discarded. -/
  drop : List TxCount
  deriving DecidableEq, Repr

/-- One out-link of the ring station. -/
structure Link where
  inj   : Inj
  /-- The flits that left on this out-link in the last step. -/
  out   : List Flit
  /-- Their word parity: SL_RS_EO_PAR or SL_RS_WO_PAR (R37, R54). -/
  par   : List FlitPar
  ins   : Option Flit
  /-- Word parity of the flit in the insertion buffer. -/
  insP  : FlitPar
  /-- A flit has waited 32 cycles: the next through flit goes to the insertion buffer (R60). -/
  arm   : Bool
  /-- POWCYC at which the flits that have waited 32 cycles had entered at the latest, while `arm` is set (R60). -/
  armAt : BitVec 64
  deriving DecidableEq, Repr

/-- One near port. -/
structure NPort where
  rx   : Rx
  /-- Credits owed to the cluster per virtual channel (R64). -/
  owed : List Nat
  /-- Credits returned in the last step: SL_NPx_RX_CRD. -/
  crd  : Byte
  /-- Credits held of the cluster per virtual channel (R63). -/
  held : List Nat
  inj  : Inj
  /-- The flits of the transmit slots in the last step. -/
  out  : List Flit
  /-- Their word parity: SL_NPx_TX_PAR0 and SL_NPx_TX_PAR1 (R37, R62). -/
  par  : List FlitPar
  deriving DecidableEq, Repr

structure Ports where
  rx      : Rx
  east    : Link
  west    : Link
  npa     : NPort
  npb     : NPort
  /-- Messages ready at the arbiters, the earliest first. -/
  ready   : List Msg
  /-- Broadcasts this station injected for another home: the name of the snoop, and the transaction of SNP_SWEPT (R229). -/
  relayed : List TxName
  /-- Flits dropped in FENCED (R144). -/
  dropped : Nat
  /-- Flits and messages with a word other than the header failing parity (R402). -/
  bad     : Nat
  /-- The east out-link has taken its message of this cycle from the ring port's arbiter (R388). -/
  eastMade : Bool
  deriving DecidableEq, Repr

/-! ### Knead unit (11, 12) -/

/-- A line-buffer entry: a line, or one RFRAME frame of a frame set (R322). -/
structure Lb where
  line  : LineId
  /-- For a frame: its number k within its frame set. -/
  frame : Option Nat
  /-- The frame key and slot it came from. -/
  key   : Nat
  slot  : Nat
  data  : Line
  mt    : Meta
  /-- The slot copy is stale (KN). -/
  kn    : Bool
  /-- The line has no slot: its fill found no frame (R346). -/
  bare  : Bool
  /-- The victim its waiting write-back has selected (R194). -/
  vic   : Option Nat
  /-- Selected for replacement: its write-back waits (R325; log 83). -/
  sel   : Bool
  deriving DecidableEq, Repr

/-- A frame-table entry (R338). -/
structure FrameSet where
  tgt    : LineId
  cls    : BitVec 4
  a      : BitVec 8
  n      : Nat
  out    : Bool
  init   : Bool
  expect : BitVec 24
  count  : BitVec 24
  sticky : BitVec 24
  poison : Bool
  ovf    : Word
  wraps  : List (BitVec 25)
  /-- Frame keys of its RFRAME frames, frame 0 first. -/
  keys   : List Nat
  deriving DecidableEq, Repr

/-- A score of a dot-scan: its row, the FP32 score, poison, and whether R468 calls it exceptional. -/
structure Score where
  row  : Nat
  s    : Word
  pois : Bool
  exc  : Bool
  deriving DecidableEq, Repr

/-- A row that is held until the next check of its column has passed (R373): its score, whether R468 calls that exceptional, its value
row, and its own poison. -/
structure HeldRow where
  row  : Nat
  s    : Word
  exc  : Bool
  v    : Option Nat
  pois : Bool
  deriving DecidableEq, Repr

/-- The state of a column after the last check that passed (R374). -/
structure ColBase where
  scores : List Score
  m      : Word
  mexc   : Bool
  l      : Word
  o      : List Word
  folded : Nat
  pois   : Bool
  deriving DecidableEq, Repr

/-- The scan state of one column for one scan (R364). -/
structure Col where
  /-- The column has been given this scan's rows. -/
  started : Bool
  /-- The next row of the column; the row count when none is left. -/
  next    : Nat
  scores  : List Score
  m       : Word
  /-- m comes from a score that R468 calls exceptional. -/
  mexc    : Bool
  l       : Word
  o       : List Word
  /-- Rows taken, and rows folded. -/
  rows    : Nat
  folded  : Nat
  /-- Rows held since the last check that passed, the earliest first, and the state after that check (R373, R374). -/
  held    : List HeldRow
  base    : ColBase
  /-- VLIM_max: a magnitude m·2^e (R372). -/
  vlim    : Nat × Int
  /-- Column cycles charged, in eighths. -/
  cycles  : Nat
  pois    : Bool
  vsplit  : Bool
  /-- The line its next row waits on, with the event that counted the wait (R361, R451). -/
  wait    : Option (LineId × Nat)
  deriving DecidableEq, Repr

/-- An accepted SCAN (R376). -/
structure ScanJob where
  r     : Req
  desc  : Body
  query : List Body
  /-- A flit of the descriptor or the query carried POIS 1. -/
  pois  : Bool
  cols  : List Col
  /-- Write tags whose completions its own completion waits for (R291). -/
  tags  : List Nat
  /-- Lines whose fetch the memory port's fall ended: supplied as poisoned lines (R127, R361). -/
  lost  : List LineId
  deriving DecidableEq, Repr

structure Knd where
  /-- Line-buffer entries in use, by index. -/
  lb       : List (Nat × Lb)
  lbLfsr   : BitVec 16
  srLfsr   : BitVec 16
  /-- Frame-table entries in use, by index. -/
  ft       : List (Nat × FrameSet)
  err      : BitVec 6
  irqen    : BitVec 6
  res      : BitVec 3
  resirqen : BitVec 3
  last     : Word
  lastA    : LineId
  rescnt   : Word
  scans    : List ScanJob
  scerr    : BitVec 3
  scirqen  : BitVec 3
  scchk    : BitVec 3
  scchken  : BitVec 3
  sclast   : Word
  scdup    : Word
  scmis    : Word
  deriving DecidableEq, Repr

/-! ### Pinning manager (10) -/

structure Cairn where
  base     : BitVec 45
  len      : Word
  cls      : BitVec 4
  seq      : Word
  demoting : Bool
  deriving DecidableEq, Repr

/-- A pin walk or an unpin walk (R299, R300). -/
structure PinWalk where
  unpin  : Bool
  r      : Req
  /-- The ranges it covers, with the class of each. -/
  ranges : List (BitVec 45 × (Word × BitVec 4))
  /-- Next frame index of each bank; 12,288 when the bank is finished. -/
  pos    : List Nat
  left   : Nat
  /-- Which of the last three rows of R298 the PIN took, counted from 5. -/
  row    : Nat
  /-- A line was left because USE had reached the quota. -/
  quota  : Bool
  deriving DecidableEq, Repr

structure Pin where
  cairns   : List (Nat × Cairn)
  seq      : Word
  /-- PIN and UNPIN requests queued, at most 8 (R298). -/
  q        : List Req
  /-- Names of the PIN and UNPIN requests that the front end has not decoded, in order of arrival (R298). -/
  order    : List TxName
  walk     : Option PinWalk
  demote   : BitVec 16
  share    : BitVec 18
  err      : BitVec 10
  irqen    : BitVec 10
  thrst    : BitVec 24
  sent     : Word
  rcvd     : Word
  lostN    : BitVec 16
  lostRf   : BitVec 16
  lost     : Option LineId
  csel     : BitVec 6
  /-- Epoch walks: next snoop-filter set, next frame index per bank (R312). -/
  epSf     : Nat
  epTag    : List Nat
  deriving DecidableEq, Repr

/-! ### Landing table (09) -/

/-- A held final write (R281). -/
structure Held where
  r    : Req
  data : Line
  pois : Bool
  deriving DecidableEq, Repr

/-- How far the tally of a held final write has come (R284). -/
inductive Tally where
  | idle
  /-- The unsent count is being added first. -/
  | adding
  | reading
  /-- Waiting for the poll gap. -/
  | gap
  /-- The subtraction is outstanding. -/
  | subbing
  /-- A failed subtraction waits for the gap. -/
  | subGap
  /-- Released: the write waits for its turn at the home engine. -/
  | release
  deriving DecidableEq, Repr

structure Land where
  u     : BitVec 16
  flush : Bool
  /-- The operand of the outstanding add. -/
  add   : Option (BitVec 16)
  /-- An add that failed waits for the gap. -/
  again : Bool
  held  : Option Held
  tally : Tally
  /-- A trigger of R282 that could not send its add yet. -/
  due   : Bool
  /-- A tally read or subtraction of a freed entry is still outstanding: its TXN is not used again before its completion (R40,
  R285). -/
  stale : Bool
  deriving DecidableEq, Repr

structure Landing where
  /-- Entries that are not at their reset value, by group. -/
  tab     : List (Nat × Land)
  strict  : Bool
  ltLo    : Word
  ltHi    : Word
  landcfg : Word
  err     : BitVec 5
  irqen   : BitVec 5
  last    : Byte
  scopew  : Word
  deriving DecidableEq, Repr

/-! ### QoS (13) -/

structure QAvg where
  avg   : BitVec 20
  steps : BitVec 4
  sum   : Nat
  cnt   : Nat
  deriving DecidableEq, Repr

structure Qos where
  avg    : List QAvg
  /-- Credits K, port by port, 16 classes each (R388). -/
  k      : List (List Int)
  /-- Effective reservations R', port by port (R389). -/
  eff    : List (List Nat)
  psum   : List Nat
  pk     : Nat
  scaled : BitVec 6
  idle   : BitVec 4
  /-- Ramp level of each bank group, when in a ramp (R391). -/
  ramp   : List (Option Nat)
  gmiss  : BitVec 16
  gmen   : BitVec 16
  err    : BitVec 2
  erren  : BitVec 2
  gmlast : Word
  rsel   : Byte
  deriving DecidableEq, Repr

/-! ### Integrity (14) -/

structure Chks where
  err       : BitVec 12
  irqen     : BitVec 12
  susp      : Byte
  step      : Word
  cecnt     : Word
  uecnt     : Word
  replay    : BitVec 24
  exh       : Byte
  w1ccol    : BitVec 16
  pass      : BitVec 16
  pos       : Nat
  sfPos     : Nat
  ftPos     : Nat
  lbPos     : Nat
  patst     : Word
  patok     : List Word
  patfail   : Word
  poislast  : Option LineId
  /-- Rises of KND_RESCNT and CHK_PARCNT.EXH in the present window of R210 (R430). -/
  resWin    : Nat
  parWin    : Nat
  resRaised : Bool
  parRaised : Bool
  scree     : List (BitVec 512)
  seq       : Word
  lost      : BitVec 16
  /-- Pattern-store words that are not 0, by word index. -/
  pat       : List (Nat × Word)
  /-- Index of the next (slot, lane) pair of the round: slot × 4 + lane. -/
  patNext   : Nat
  /-- The pair whose run has fallen due. -/
  patDue    : Option Nat
  /-- A write has voided the run under way. -/
  patVoid   : Bool
  /-- Upsets of stores and buses that no access has met (R398, R401; log 1). -/
  upsets    : List Upset
  deriving DecidableEq, Repr

/-! ### Power and counters (15) -/

/-- FSTATE (R460). -/
inductive FState where
  | idle
  | preparing
  | acked
  | deferred
  deriving DecidableEq, Repr

structure Pwr where
  fixed  : Bool
  droop  : Bool
  thr    : BitVec 3
  fstate : FState
  /-- SL_PW_FREQ_REQ recognised high. -/
  req    : Bool
  /-- SL_PW_FREQ_ACK. -/
  ack    : Bool
  err    : BitVec 4
  irqen  : BitVec 4
  acc    : List (BitVec 56)
  ehi    : List (BitVec 16)
  /-- The last energy report: the 16 captured values (R448). -/
  report : List (BitVec 48)
  /-- POWCYC of the CCK cycle in which that report began. -/
  rstart : BitVec 64
  deriving DecidableEq, Repr

/-- Occurrences of an event in the present CCK cycle: number, qualifier, count (R451 to R453). -/
structure PmcEv where
  num  : Nat
  qual : Nat
  k    : Nat
  deriving DecidableEq, Repr

structure Pmc where
  cnt    : List (BitVec 40)
  ovf    : List Bool
  uperm  : List Word
  snap   : List (BitVec 40)
  snapT  : BitVec 64
  freeze : Bool
  fcnt   : Byte
  fvalid : Bool
  msel   : Byte
  latch  : Byte
  ulatch : Byte
  now    : List PmcEv
  /-- The occurrences of the previous CCK cycle, for EDGE (R452). -/
  prev   : List PmcEv
  /-- The present cycle adds nothing: a write of FREEZE 0 or CLR has taken effect in it (R455, R456). -/
  skip   : Bool
  deriving DecidableEq, Repr

/-! ### Saddle port (03) -/

/-- LNK_ST.STATE (R109). -/
inductive LkSt where
  | down
  | detect
  | ts1
  | lanechk
  | capex
  | rateset
  | prbs
  | align
  | up
  | retrain
  deriving DecidableEq, Repr

/-- A settled or candidate mode: rate code, lane group mask, width exponent, FEC, spread (R95). -/
structure Mode where
  rate  : BitVec 2
  group : Byte
  /-- Lanes that passed at this rate with both partners (R95). -/
  lanes : Byte
  width : BitVec 2
  base  : BitVec 3
  fec   : Bool
  ssc   : Bool
  deriving DecidableEq, Repr

/-- A frame sent on the saddle link: a data frame, or a control frame or retrain request with its fields (R86, R89). -/
inductive SentFrame where
  | data (hdr : BitVec 40) (slots : List Flit)
  | ctl (hdr : BitVec 40) (slots : List Flit) (c : CtlFields)
  deriving DecidableEq, Repr

structure Lnk where
  hold    : Bool
  st      : LkSt
  mode    : Mode
  rev     : Bool
  errc    : BitVec 5
  /-- The settings in force at the link layer (R145). -/
  cfg     : LinkCfg
  pcap    : Word
  good    : Byte
  polinv  : Byte
  lflt    : BitVec 24
  err     : BitVec 5
  irqen   : BitVec 5
  laneEn  : Byte
  phyReq  : Bool
  phyRate : BitVec 2
  phySsc  : Bool
  /-- Rate and spread to be asked for once the PHY has answered the request under way (R84). -/
  want    : Option (BitVec 2 × Bool)
  slew    : BitVec 3
  /-- Lanes found usable in LANECHK, here and with the partner. -/
  usable  : Byte
  /-- The width exponent found in step 3, the rates common to both sides, and the candidates left (R95). -/
  width3  : BitVec 2
  cands   : List (BitVec 2)
  best    : Option Mode
  /-- The lane group an in-service retrain keeps. -/
  keep    : Byte
  /-- Transmit queue, the earliest flit first: at most 64 per virtual channel, with those of `sel` (R106). -/
  tx      : List OutFlit
  /-- Request messages the arbiter of port 5 has chosen, next to be framed (R388). -/
  sel     : List OutFlit
  /-- Retained data frames: SEQ, flits, and replay requests counted (R99, R101). -/
  replay  : List (BitVec 6 × (List Flit × Nat))
  /-- Retained frames still to be resent for the last request. -/
  resend  : List (BitVec 6)
  seq     : BitVec 6
  ack     : BitVec 6
  /-- The receiver discards until the frame after `ack` arrives (R100). -/
  disc    : Bool
  /-- The next frame sent asks for a replay. -/
  ask     : Bool
  /-- The replay limit has been met once since the last successful progress (R101). -/
  limited : Bool
  /-- Frames sent since the last control frame (R88). -/
  since   : Nat
  /-- Credits held toward the partner, per virtual channel (R98). -/
  credit  : List Nat
  /-- Credits to return to the partner, per virtual channel. -/
  owed    : List Nat
  /-- Control frames with a wrong marker in a row, per lane (R102). -/
  badMk   : List Nat
  /-- Good control frames counted in ALIGN. -/
  aligned : Nat
  /-- Lanes whose far end was found to be a driver at the end of DETECT (R92). -/
  drv     : Byte
  /-- The link has been up since it last went down (R104). -/
  served  : Bool
  /-- The full training under way follows a loss in service (R110, LNK_DOWN). -/
  lost    : Bool
  /-- In-service retrain: the TYPE 0b11 frame is still to be sent; the partner's has come (R103). -/
  rreq    : Bool
  ragree  : Bool
  /-- The last frame sent. -/
  sent    : Option SentFrame
  /-- Transmit FIFO of the crossing to PCK: framed and not yet on the lanes, at most 16 frames (R119). -/
  txFifo  : List SentFrame
  /-- Lanes whose PRBS check passed here, sent in TS2 (R91). -/
  pgood   : Byte
  deriving DecidableEq, Repr

/-! ### Register port and test access (02) -/

structure Rg where
  rdata : Word
  rpar  : Bool
  err   : Bool
  /-- SL_RG_RDY: high in the cycle in which an access completes (R73). -/
  rdy   : Bool
  deriving DecidableEq, Repr

/-- The states of the TAP controller (R78, IEEE 1149.1). -/
inductive TapSt where
  | testLogicReset
  | runTestIdle
  | selectDr
  | captureDr
  | shiftDr
  | exit1Dr
  | pauseDr
  | exit2Dr
  | updateDr
  | selectIr
  | captureIr
  | shiftIr
  | exit1Ir
  | pauseIr
  | exit2Ir
  | updateIr
  deriving DecidableEq, Repr

structure Tap where
  ir      : BitVec 4
  /-- The shift stage of the instruction register. -/
  sh      : BitVec 4
  st      : TapSt
  /-- The bypass register (R79). -/
  bypass  : Bool
  /-- Segment insertion bits of the network: bond-test result chain, array self-test controller, state capture (R79). -/
  segs    : BitVec 3
  last    : Option Instrument
  capture : BitVec 64
  /-- The failing connections in the bond-test result chain when it was last captured (R147). -/
  chain   : List (BitVec 4 × BitVec 10)
  /-- Captures taken through the network. -/
  n       : Nat
  deriving DecidableEq, Repr

/-- The slice. -/
structure State where
  ring : Ring
  ctl  : Ctl
  cfg  : Cfg
  arr  : Arr
  mp   : Mp
  home : Home
  port : Ports
  knd  : Knd
  pin  : Pin
  land : Landing
  qos  : Qos
  chk  : Chks
  pwr  : Pwr
  pmc  : Pmc
  lnk  : Lnk
  rg   : Rg
  tap  : Tap
  /-- Commands waiting, the next first. -/
  pending : List Instr
  deriving DecidableEq, Repr

/-! ### Reset values -/

def Ring.reset : Ring :=
  { rsRst := true, coreRst := true, mpRst := true, spRst := true, tapRst := true, tstMode := false
    tieSlice := 0, tieDie := 0, tieEdge := false, tieItag := 0, powcyc := 0, powHi := 0, rstcause := 1
    mckRun := false, pckRun := false, mpUp := false, mpNeedRst := false, xerr := 0, xirqen := 0x3F
    bondFail := 0, bondDone := false, bondBad := [], pulses := List.replicate 4 0 }

def Ctl.reset : Ctl :=
  { st := .off, busy := false, epoch := false, lorig := .off, phase := .none, img := [], imgCnt := 0
    leCode := 0, leSect := 0, leOff := 0, imgser := 0, prof := 0, gov := 0, rejOp := 0, rejState := 0, rejSrc := false
    rejCnt := 0, insvc := 0, drnBuf := 0, drnFr := 0, irq := 0, irqen := 0xF, initResume := false
    linkChanged := false, loadRej := 0 }

def ArrCfg.reset : ArrCfg :=
  { insvc := 0, comp := false, seed := 0, cairnw := 0, bufw := 0, wayoff := List.replicate 16 0, regions := [] }

def PinCfg.reset : PinCfg := { demrate := 0, thrlim := 0, quota := List.replicate 16 0, windows := [] }

def KndCfg.reset : KndCfg := { lanes := List.replicate 4 0, seed := 0 }

def QosCfg.reset : QosCfg :=
  { shift := 0, upd := 0, age := 0, iclass := 0, rlEn := false, rlIdle := 0, rlStart := 0, rlStep := 0
    cls := List.replicate 16 { target := 0, base := 0, gmen := false, ports := 0, res := 0 } }

def ChkCfg.reset : ChkCfg :=
  { level := 0, scrubEn := false, scrubp := 0, suspmask := 0, patEn := false, pint := 0, parlim := 0, reslim := 0 }

/-- The link registers' reset values (R109, R139). -/
def LinkCfg.reset : LinkCfg :=
  { enable := false, cap := 0xBE, cfg := 0x1000, fwd := 0, phyc := 4, dies := [] }

def EnCfg.reset : EnCfg := { erptEn := false, erper := 0, coef := List.replicate 12 0 }

def Cfg.reset : Cfg :=
  { arr := .reset, compat := false, mapA := [], mapB := [], prevMap := none, pin := .reset, knd := .reset
    qos := .reset, chk := .reset, link := .reset, count := List.replicate 160 0, ener := .reset }

def Arr.reset : Arr :=
  { frames := [], lfsr := List.replicate 16 0, ceCnt := [], degraded := 0, closing := List.replicate 16 none
    waydis := List.replicate 16 0, err := 0, irqen := 0x1F, celast := 0, rewrite := [], struck := [], locks := []
    thrash := List.replicate 16 0, undef := false }

def Mp.reset : Mp :=
  { miss := [], cmdFifo := [], wdFifo := [], rdFifo := [], rdWait := [], hold := [], ord := 0, flushRd := [], flushWr := [], flushWd := []
    badTags := 0 }

def Dead.reset : Dead := { agent := 0, np := 0, done := false, valid := false, left := 0, opens := [] }

def Home.reset : Home :=
  { sf := [], sfLfsr := 0, ht := [], q := [], scanQ := [], invQ := [], digQ := [], invs := [], dig := none
    err := 0, irqen := 0xF, errsrc := 0, deadto := 0x14, retry := 8, dead := List.replicate 16 .reset
    walk := false, walkSet := 0, toerr := 0, toirqen := 0x7F, tolast := 0, poiscnt := 0 }

def Inj.reset : Inj := { req := [], snp := [], rsp := [], dat := [], turn := 0, run := 0 }

def Rx.reset : Rx := { req := [], snp := [], rsp := [], dat := [], resv := [], pay := [], late := [], drop := [] }

def Link.reset : Link := { inj := .reset, out := [], par := [], ins := none, insP := 0, arm := false, armAt := 0 }

def NPort.reset : NPort :=
  { rx := .reset, owed := [0, 0, 0, 0], crd := 0, held := [0, 0, 0, 0], inj := .reset, out := [], par := [] }

def Ports.reset : Ports :=
  { rx := .reset, east := .reset, west := .reset, npa := .reset, npb := .reset, ready := [], relayed := []
    dropped := 0, bad := 0, eastMade := false }

def Knd.reset : Knd :=
  { lb := [], lbLfsr := 0, srLfsr := 0, ft := [], err := 0, irqen := 0x3F, res := 0, resirqen := 7, last := 0
    lastA := ⟨false, 0⟩, rescnt := 0, scans := [], scerr := 0, scirqen := 7, scchk := 0, scchken := 7
    sclast := 0, scdup := 0, scmis := 0 }

def Pin.reset : Pin :=
  { cairns := [], seq := 0, q := [], order := [], walk := none, demote := 0, share := 0, err := 0, irqen := 0x3FF
    thrst := 0, sent := 0, rcvd := 0, lostN := 0, lostRf := 0, lost := none, csel := 0, epSf := 8192
    epTag := List.replicate 16 12288 }

def Land.reset : Land := { u := 0, flush := false, add := none, again := false, held := none, tally := .idle, due := false, stale := false }

def Landing.reset : Landing :=
  { tab := [], strict := false, ltLo := 0, ltHi := 0, landcfg := 0x984, err := 0, irqen := 0x1F, last := 0
    scopew := 0 }

def Qos.reset : Qos :=
  { avg := List.replicate 16 { avg := 0, steps := 0, sum := 0, cnt := 0 }
    k := List.replicate 6 (List.replicate 16 0), eff := List.replicate 6 (List.replicate 16 0)
    psum := List.replicate 6 0, pk := 0, scaled := 0, idle := 0, ramp := List.replicate 4 none
    gmiss := 0, gmen := 0xFFFF, err := 0, erren := 3, gmlast := 0, rsel := 0 }

def Chks.reset : Chks :=
  { err := 0, irqen := 0xFFF, susp := 0, step := 0, cecnt := 0, uecnt := 0, replay := 0, exh := 0, w1ccol := 0
    pass := 0, pos := 0, sfPos := 0, ftPos := 0, lbPos := 0, patst := 0, patok := List.replicate 4 0, patfail := 0
    poislast := none, resWin := 0, parWin := 0, resRaised := false, parRaised := false, scree := [], seq := 0
    lost := 0, pat := [], patNext := 0, patDue := none, patVoid := false, upsets := [] }

def Pwr.reset : Pwr :=
  { fixed := false, droop := false, thr := 0, fstate := .idle, req := false, ack := false, err := 0, irqen := 0xF
    acc := List.replicate 16 0, ehi := List.replicate 16 0, report := [], rstart := 0 }

def Pmc.reset : Pmc :=
  { cnt := List.replicate 160 0, ovf := List.replicate 160 false, uperm := List.replicate 5 0
    snap := List.replicate 160 0, snapT := 0, freeze := false, fcnt := 0, fvalid := false, msel := 0, latch := 0
    ulatch := 0, now := [], prev := [], skip := false }

def Mode.reset : Mode := { rate := 0, group := 0, lanes := 0, width := 0, base := 0, fec := false, ssc := false }

def Lnk.reset : Lnk :=
  { hold := false, st := .down, mode := .reset, rev := false, errc := 0, cfg := .reset, pcap := 0, good := 0
    polinv := 0, lflt := 0, err := 0, irqen := 0x1F, laneEn := 0, phyReq := false, phyRate := 0, phySsc := false, want := none
    slew := 4, usable := 0, width3 := 0, cands := [], best := none, keep := 0, tx := [], sel := []
    replay := [], resend := [], seq := 0, ack := 0, disc := false, ask := false, limited := false, since := 0
    credit := [0, 0, 0, 0], owed := [0, 0, 0, 0], badMk := List.replicate 8 0, aligned := 0, drv := 0, served := false
    lost := false, rreq := false, ragree := false, sent := none, txFifo := [], pgood := 0 }

def Rg.reset : Rg := { rdata := 0, rpar := false, err := false, rdy := false }

def Tap.reset : Tap :=
  { ir := 0xF, sh := 0, st := .testLogicReset, bypass := false, segs := 0, last := none, capture := 0, chain := [], n := 0 }

/-- The slice at power-up: SL_RS_RST_N asserted, the state OFF (R133, R140, R141). -/
def State.reset : State :=
  { ring := .reset, ctl := .reset, cfg := .reset, arr := .reset, mp := .reset, home := .reset, port := .reset
    knd := .reset, pin := .reset, land := .reset, qos := .reset, chk := .reset, pwr := .reset, pmc := .reset
    lnk := .reset, rg := .reset, tap := .reset, pending := [] }

end Sys2Proof.Machine
end

