-- ==== Sys2Proof/Machine/Ops.lean ====
section
/-! DEFINITION. The operations every meaning shares: how a command answers, the sparse tables, bit fields, checksums, and
the reports of the slice (events, energy, status bits, scree records). -/
namespace Sys2Proof.Machine

/-! ### How a command answers -/

/-- A command that has been carried out: the next state. No command touches the queue of waiting commands, so the queue of
the state before is put back, whatever the effect `t` says of it. -/
def State.did (s t : State) : Host.Outcome State Fault Refusal := .next { t with pending := s.pending }

/-- A command whose condition `g` does not hold changes nothing (assumption log 3). -/
def State.when (s : State) (g : Bool) (t : State) : Host.Outcome State Fault Refusal :=
  .next (if g then { t with pending := s.pending } else s)

/-- Work may start: neither in the preparation of a frequency change nor while SL_PW_FREQ_ACK is high (R441 steps 2 to 7). -/
def State.mayStart (s : State) : Bool := s.pwr.fstate != .preparing && s.pwr.fstate != .acked

/-- A command that starts array accesses, knead operations, scan rows, proof runs or walk steps waits while starts are stopped
(R441). -/
def State.starting (s : State) (o : Host.Outcome State Fault Refusal) : Host.Outcome State Fault Refusal :=
  if s.mayStart then o else .next s

/-! ### Sparse tables: (key, value) pairs, keys strictly rising -/

/-- The value at a key, where one is listed. -/
def tabGet {α : Type} : List (Nat × α) → Nat → Option α
  | [], _ => none
  | (k, v) :: r, key => if k = key then some v else tabGet r key

/-- The table with `v` at `key`; keys stay strictly rising. -/
def tabPut {α : Type} : List (Nat × α) → Nat → α → List (Nat × α)
  | [], key, v => [(key, v)]
  | (k, w) :: r, key, v =>
    if key < k then (key, v) :: (k, w) :: r else if k = key then (key, v) :: r else (k, w) :: tabPut r key v

/-- The table without `key`. -/
def tabDel {α : Type} : List (Nat × α) → Nat → List (Nat × α)
  | [], _ => []
  | (k, w) :: r, key => if k = key then r else (k, w) :: tabDel r key

/-- Every key of the table lies above `lo`, and the keys are strictly rising. -/
def tabAbove {α : Type} : Nat → List (Nat × α) → Bool
  | _, [] => true
  | lo, (k, _) :: r => decide (lo < k) && tabAbove k r

/-- The canonical form of a table: keys strictly rising. -/
def tabSorted {α : Type} : List (Nat × α) → Bool
  | [] => true
  | (k, _) :: r => tabAbove k r

/-- The first index below `n` that the table does not list. -/
def tabFree {α : Type} (m : List (Nat × α)) (n : Nat) : Option Nat :=
  (List.range n).find? fun i => (tabGet m i).isNone

/-- Element `i` of a list, or a stand-in past its end. -/
def nth {α : Type} (l : List α) (i : Nat) (d : α) : α := l.getD i d

/-- The list with the element at `i` put through `f`. -/
def upd {α : Type} (l : List α) (i : Nat) (f : α → α) : List α := l.modify i f

/-! ### Bit fields -/

/-- Field of `w` bits at bit `lo`. -/
def fld {n : Nat} (x : BitVec n) (lo w : Nat) : BitVec w := x.extractLsb' lo w

/-- A bit as a Bool. -/
def bit {n : Nat} (x : BitVec n) (i : Nat) : Bool := x.getLsbD i

/-- A word put together from (lowest bit, value) pairs; every bit not named is 0 (R38). -/
def pack (n : Nat) (l : List (Nat × Nat)) : BitVec n :=
  l.foldl (fun a p => a ||| (BitVec.ofNat n p.2 <<< p.1)) 0

/-- A word with bit `i` set. -/
def setBit {n : Nat} (x : BitVec n) (i : Nat) : BitVec n := x ||| (1#n <<< i)

/-- A word with bit `i` cleared. -/
def clrBit {n : Nat} (x : BitVec n) (i : Nat) : BitVec n := x &&& ~~~(1#n <<< i)

/-- A word with bit `i` at `b`. -/
def putBit {n : Nat} (x : BitVec n) (i : Nat) (b : Bool) : BitVec n := if b then setBit x i else clrBit x i

/-- The number of ones among the lowest `k` bits. -/
def onesBelow {n : Nat} (x : BitVec n) : Nat → Nat
  | 0 => 0
  | k + 1 => onesBelow x k + (if x.getLsbD k then 1 else 0)

/-- The number of ones of a word. -/
def ones {n : Nat} (x : BitVec n) : Nat := onesBelow x n

/-- The even parity bit of a word: with it, the word holds an even number of ones (R37). -/
def parity {n : Nat} (x : BitVec n) : Bool := ones x % 2 == 1

/-- A count that stays at its largest value (saturating counters of R433 and others). -/
def satAdd {n : Nat} (x : BitVec n) (k : Nat) : BitVec n :=
  if x.toNat + k ≥ 2 ^ n then BitVec.allOnes n else x + BitVec.ofNat n k

/-- A Bool as a number. -/
def num (b : Bool) : Nat := if b then 1 else 0

/-! ### Checksums and registers of bits -/

/-- The `k` bytes from bit 0 up, in ascending order. -/
def bytesOf {n : Nat} (x : BitVec n) : Nat → List Byte
  | 0 => []
  | k + 1 => bytesOf x k ++ [x.extractLsb' (8 * k) 8]

/-- One bit of the reflected CRC-32C register (R160). -/
def crc32cBit (c : BitVec 32) : BitVec 32 :=
  if c.getLsbD 0 then (c >>> 1) ^^^ 0x82F63B78#32 else c >>> 1

/-- One byte of the CRC-32C register. -/
def crc32cByte (c : BitVec 32) (b : Byte) : BitVec 32 :=
  (List.range 8).foldl (fun c _ => crc32cBit c) (c ^^^ b.setWidth 32)

/-- CRC-32C (R160): polynomial 0x1EDC_6F41 reflected in and out, initial value and final XOR 0xFFFF_FFFF. -/
def crc32c (bs : List Byte) : BitVec 32 := (bs.foldl crc32cByte 0xFFFFFFFF#32) ^^^ 0xFFFFFFFF#32

/-- One bit of the CRC-16 register (R86). -/
def crc16Bit (c : BitVec 16) : BitVec 16 :=
  if c.getLsbD 15 then (c <<< 1) ^^^ 0x1021#16 else c <<< 1

/-- CRC-16 (R86): polynomial 0x1021, not reflected, initial value 0xFFFF, each byte most significant bit first. -/
def crc16 (bs : List Byte) : BitVec 16 :=
  bs.foldl (fun (c : BitVec 16) (b : Byte) =>
    (List.range 8).foldl (fun c _ => crc16Bit c) (c ^^^ (b.setWidth 16 <<< (8 : Nat)))) 0xFFFF#16

/-- The 136 bytes a crust covers: the address word of R406 and the 128 bytes of the line. -/
def crustBytes (l : LineId) (d : Line) : List Byte :=
  bytesOf (pack 64 [(7, l.ln.toNat), (63, num l.space)]) 8 ++ bytesOf d 128

/-- The crust tag of a line (R406). -/
def crust (l : LineId) (d : Line) : Word := crc32c (crustBytes l d)

/-- The upper half of a line's digest: the same CRC over the same bytes in descending order (R428). -/
def crustDown (l : LineId) (d : Line) : Word := crc32c (crustBytes l d).reverse

/-- One step of the Fibonacci LFSR for x¹⁶+x¹⁴+x¹³+x¹¹+1 (R191). -/
def lfsrStep (b : BitVec 16) : BitVec 16 :=
  (b <<< 1) ||| (BitVec.ofBool (bit b 15 ^^ bit b 13 ^^ bit b 12 ^^ bit b 10)).setWidth 16

/-- Word parity PAR[19:0] of a flit (R37). -/
def flitPar (f : Flit) : FlitPar :=
  (List.range 20).foldl (fun p i => putBit p i (parity (fld f (32 * i) 32))) 0

/-- Byte `i` of a line (R66). -/
def lineByte (d : Line) (i : Nat) : Byte := fld d (8 * i) 8

/-- The bytes of `new` where the mask is set, those of `old` elsewhere. -/
def mergeMask (old new : Line) (m : BitVec 128) : Line :=
  (List.range 128).foldl (fun d i => if bit m i then d ||| ((fld new (8 * i) 8).setWidth 1024 <<< (8 * i))
    else d ||| ((fld old (8 * i) 8).setWidth 1024 <<< (8 * i))) 0

/-! ### States of the slice -/

/-- The core is out of reset: every state but OFF and FENCED (R140). -/
def State.coreUp (s : State) : Bool := s.ctl.st != .off && s.ctl.st != .fenced

/-- The address of a line's first byte. -/
def lineAddr (l : LineId) : Addr := l.ln.setWidth 52 <<< 7

/-- The line an address lies in. -/
def lineOf (space : Bool) (a : Addr) : LineId := ⟨space, fld a 7 45⟩

/-! ### Events and energy (15) -/

/-- `k` occurrences of event `n` with qualifier `q` in the present CCK cycle (R451 to R453). -/
def State.evk (s : State) (n q k : Nat) : State :=
  if s.coreUp && k != 0 then { s with pmc.now := ⟨n, q, k⟩ :: s.pmc.now } else s

/-- An event without a qualifier. -/
def State.ev (s : State) (n : Nat) : State := s.evk n 0 1

/-- An event with its qualifier. -/
def State.evq (s : State) (n q : Nat) : State := s.evk n q 1

/-- Energy of `n` activities of kind `k`, charged to class `c` (R445, R446). -/
def State.charge (s : State) (k : Nat) (c : BitVec 4) (n : Nat) : State :=
  { s with pwr.acc := upd s.pwr.acc c.toNat fun a => a + BitVec.ofNat 56 ((nth s.cfg.ener.coef k 0).toNat * n) }

/-- The class of work that no request caused (R379). -/
def State.iclass (s : State) : BitVec 4 := s.cfg.qos.iclass

/-- Bank group `g` has work to start: an idle bank group enters the ramp at RL_START, which is over at once at level 3 (R390,
R391). -/
def State.start (s : State) (g : Nat) : State :=
  if bit s.qos.idle g then
    { (s.ev 138) with
      qos.idle := clrBit s.qos.idle g
      qos.ramp := upd s.qos.ramp g fun _ => if s.cfg.qos.rlStart = 3 then none else some s.cfg.qos.rlStart.toNat }
  else s

/-! ### Status bits, causes and scree records (14) -/

/-- Sets a bit of ST_IRQ (R153, R174): 0 CMD_DONE, 1 STATE_ERR, 2 LOAD_ERR, 3 BOND_FAIL. -/
def State.stIrq (s : State) (i : Nat) : State := { s with ctl.irq := setBit s.ctl.irq i }

/-- Sets a bit of CHK_ERR (R433). -/
def State.chkErr (s : State) (i : Nat) : State := { s with chk.err := setBit s.chk.err i }

/-- Sets a cause of CHK_SUSP, and CHK_ERR.SUSPECT with it (R430). -/
def State.suspect (s : State) (i : Nat) : State :=
  { s with chk.susp := setBit s.chk.susp i, chk.err := setBit s.chk.err 11 }

/-- What a scree record says beside the fields the integrity block fills itself (R425). -/
structure Scree where
  kind   : Nat
  sev    : Nat
  susp   : Bool := false
  line   : Option LineId := none
  bank   : Nat := 0
  way    : Nat := 0
  set    : Nat := 0
  word   : Nat := 0
  unit   : Nat := 0
  lane   : Nat := 0
  cls    : Nat := 0
  agent  : Nat := 0
  synd   : Nat := 0
  cnt    : Nat := 0
  detail : Nat := 0

/-- Record bits [495:0] (R425). -/
def screeBody (s : State) (r : Scree) : BitVec 512 :=
  pack 512 [(0, 1), (8, r.kind), (16, r.sev), (18, num (r.susp || r.sev == 3)), (20, s.ring.tieSlice.toNat),
    (32, s.chk.seq.toNat), (64, s.ring.powcyc.toNat), (128, s.chk.step.toNat),
    (160, num (r.line.getD ⟨false, 0⟩).space), (161, num r.line.isSome),
    (167, (r.line.getD ⟨false, 0⟩).ln.toNat), (212, r.bank), (216, r.way), (220, r.set), (233, r.word), (237, r.unit),
    (241, r.lane), (243, r.cls), (248, r.agent), (260, r.synd), (268, r.cnt), (272, r.detail)]

/-- The 64-byte record: the body with its CRC-16 in bits [511:496] (R425). -/
def screeRecord (s : State) (r : Scree) : BitVec 512 :=
  let b := screeBody s r
  b ||| ((crc16 (bytesOf b 62)).setWidth 512 <<< 496)

/-- Puts a record into the scree buffer, or discards and counts it when 32 are unread (R427). -/
def State.screePush (s : State) (b : BitVec 512) : State :=
  if s.chk.scree.length < 32 then { s with chk.scree := s.chk.scree ++ [b], chk.seq := s.chk.seq + 1 }
  else ({ s with chk.lost := satAdd s.chk.lost 1, chk.seq := s.chk.seq + 1 }.chkErr 10).suspect 7

/-- Emits a scree record. A record of SEV 3 sets cause UNATTR and CHK_ERR.UNATTR (R430, R433); a record of SEV 2 that names a
line is a poison notice (R416). -/
def State.scree (s : State) (r : Scree) : State :=
  let s := if r.sev == 3 then (s.chkErr 6).suspect 0 else s
  let s := if r.sev == 2 && r.line.isSome then
      { (s.evq 150 r.kind).chkErr 7 with chk.poislast := r.line } else s
  s.screePush (screeRecord s r)

/-- One scree record of kind LIMIT, with the cause bit and the limit reached (R430). -/
def State.limitRecord (s : State) (cause lim : Nat) : State :=
  (s.suspect cause).scree { kind := 0x52, sev := 0, susp := true, detail := cause + lim * 8 }

/-- Replay sequences that failed: CHK_PARCNT.EXH, and the cause PARLIM at its limit within a window (R430, R401). -/
def State.parExh (s : State) : State :=
  let s := { s with chk.exh := satAdd s.chk.exh 1, chk.parWin := s.chk.parWin + 1 }
  if !s.chk.parRaised && s.cfg.chk.parlim != 0 && s.chk.parWin ≥ s.cfg.chk.parlim.toNat then
    { s with chk.parRaised := true }.limitRecord 5 s.cfg.chk.parlim.toNat
  else s

/-- Residue reruns: KND_RESCNT, and the cause RESLIM at its limit within a window (R430, R349). -/
def State.resRerun (s : State) : State :=
  let s := { s with knd.rescnt := satAdd s.knd.rescnt 1, chk.resWin := s.chk.resWin + 1 }
  if !s.chk.resRaised && s.cfg.chk.reslim != 0 && s.chk.resWin ≥ s.cfg.chk.reslim.toNat then
    { s with chk.resRaised := true }.limitRecord 4 s.cfg.chk.reslim.toNat
  else s

/-- `n` parity replays or reissues, counted in CHK_PARCNT.REPLAY (R401, R433). -/
def State.replays (s : State) (n : Nat) : State :=
  { s.evk 152 0 n with chk.replay := satAdd s.chk.replay n }

/-- A corrected error of any SECDED store (R433). -/
def State.ceCount (s : State) : State := { s.ev 151 with chk.cecnt := satAdd s.chk.cecnt 1 }

/-- An uncorrectable word of any SECDED store (R433). -/
def State.ueCount (s : State) : State := { s with chk.uecnt := satAdd s.chk.uecnt 1 }

/-- An internal transfer of words whose bus took `bus` replays, 5 standing for a fourth replay that failed (R401): the
replays are counted, and a failure is counted in EXH. Tells whether the transfer failed. The record is the caller's. -/
def State.busReplay (s : State) (bus : Nat) : State × Bool :=
  if bus ≥ 5 then ((s.replays 4).parExh.chkErr 0, true) else (s.replays bus, false)

/-! ### Upsets that a later access meets (R398, R401, R413; log 1) -/

/-- The word of line-buffer entry `i` that an upset has struck, taken out of those not yet met. -/
def State.takeLb (s : State) (i : Nat) : State × Store :=
  let is (u : Upset) : Bool := match u with
    | .lb j _ => j == i
    | .bus _ _ => false
  match s.chk.upsets.find? is with
  | some (.lb _ e) => ({ s with chk.upsets := s.chk.upsets.eraseP is }, e)
  | _ => (s, .clean)

/-- The replays that the next transfer on a bus takes, taken out of the upsets not yet met. -/
def State.takeBus (s : State) (b : Bus) : State × Nat :=
  let is (u : Upset) : Bool := match u with
    | .bus c _ => c == b
    | .lb _ _ => false
  match s.chk.upsets.find? is with
  | some (.bus _ n) => ({ s with chk.upsets := s.chk.upsets.eraseP is }, n)
  | _ => (s, 0)

/-- The words that still fail after the fourth replay, for a number of replays of 5 + m (R401). -/
def busMask (n : Nat) : FlitPar := if n ≥ 5 then BitVec.ofNat 20 (n - 5) else 0

/-- The record of an internal transfer whose fourth replay failed on the words `w` (R401, R425, R426): a known line goes on poisoned, with
SEV 2; a flit or request is lost, with SEV 1. -/
def parExhaust (line : Option LineId) (cls agent : Nat) (w : FlitPar) : Scree :=
  { kind := 0x20, sev := if line.isSome then 2 else 1, line, unit := 13, cls, agent, cnt := 4, detail := w.toNat }

/-- A transfer on an internal bus: its replays are counted, and a failure is reported (R401). Tells the words that still fail; 0 for a
transfer that went through. `line` is the line that is known and goes on, for the words that fail. -/
def State.busMeet (s : State) (b : Bus) (line : FlitPar → Option LineId) (cls agent : Nat) : State × FlitPar :=
  let (s, n) := s.takeBus b
  let (s, bad) := s.busReplay n
  if bad then (s.scree (parExhaust (line (busMask n)) cls agent (busMask n)), busMask n) else (s, 0)

/-! ### Pulse crossings (R120) -/

/-- A pulse reaches crossing `i` (0 MCK, 1 PCK, 2 TCK, 3 RP): one that meets the pulse before it unacknowledged is not carried and sets the
overrun bit (R120; log 67). Tells whether it is carried. -/
def State.pulse (s : State) (i : Nat) : State × Bool :=
  let n := nth s.ring.pulses i 0
  let t := { s with ring.pulses := upd s.ring.pulses i (· + 1) }
  if n != 0 && Config.freeOverrun i n then ({ t with ring.xerr := setBit s.ring.xerr (2 + i) }, false) else (t, true)

/-- `k` pulses of event `e` that is counted through crossing `i`, with qualifier `q`. -/
def State.pulsesq (s : State) (i e q k : Nat) : State :=
  let t := (List.range k).foldl (fun s _ => let p := s.pulse i; if p.2 then p.1.evq e q else p.1) s
  { s with ring.pulses := t.ring.pulses, ring.xerr := t.ring.xerr, pmc.now := t.pmc.now }

/-- `k` pulses of an event without qualifier. -/
def State.pulses (s : State) (i e k : Nat) : State := s.pulsesq i e 0 k

/-- A transfer on the memory port ends the stall cycles before it, event `e` for each (R120, R451). -/
def State.stalled (s : State) (e : Nat) : State := s.pulses 0 e (Config.freeStall (nth s.ring.pulses 0 0))

end Sys2Proof.Machine
end

