-- ==== Sys2Proof/Machine/Lines.lean ====
section
/-! DEFINITION. Where a line lives and how it is stored: home maps, sets, frame formats and the encodings of a slot (06, 10). -/
namespace Sys2Proof.Machine

/-! ### Homes (01, 10) -/

/-- The map index of a line's loaf (R308). -/
def mapIndex (l : LineId) : BitVec 12 :=
  fld l.ln 2 12 ^^^ fld l.ln 14 12 ^^^ fld l.ln 26 12 ^^^ (fld l.ln 38 7).setWidth 12

/-- The active home map: ST_STATE.EPOCH selects A or B (R162, R309). -/
def State.activeMap (s : State) : List Word := if s.ctl.epoch then s.cfg.mapB else s.cfg.mapA

/-- The inactive map. -/
def State.otherMap (s : State) : List Word := if s.ctl.epoch then s.cfg.mapA else s.cfg.mapB

/-- The lowest-numbered bank of a list that is in service (ST_BANKS.INSVC). -/
def State.firstBank (s : State) (bs : List Nat) : Option Nat := bs.find? fun b => bit s.ctl.insvc b

/-- The stand-in of a bank (R311): the bank itself in service, else the lowest in service of its group, else of the slice. -/
def State.standIn (s : State) (b : Nat) : Nat :=
  ((s.firstBank [b]).orElse fun _ => (s.firstBank ((List.range 4).map (4 * (b / 4) + ·))).orElse fun _ =>
    s.firstBank (List.range 16)).getD b

/-- Home slice and effective home bank of a line under a map (R309, R311). -/
def State.homeIn (s : State) (m : List Word) (l : LineId) : Id12 × Nat :=
  let w := nth m (mapIndex l).toNat 0
  let sl := fld w 0 12
  let b := (fld w 12 4).toNat
  (sl, if sl = s.ring.tieSlice then s.standIn b else b)

/-- Whether this slice is the line's home under its active map (R19). -/
def State.homesHere (s : State) (l : LineId) : Bool := (s.homeIn s.activeMap l).1 == s.ring.tieSlice

/-- The effective bank of a line at this slice: under the active map, or for a line that has left this slice, until RESUME,
under the previous map (R312, R318). -/
def State.bankOf (s : State) (l : LineId) : Nat :=
  let h := s.homeIn s.activeMap l
  if h.1 = s.ring.tieSlice then h.2
  else match s.cfg.prevMap with
    | some m => (s.homeIn m l).2
    | none => h.2

/-- The target map of a move that arrives (R316). -/
def State.targetMap (s : State) : List Word := if s.cfg.prevMap.isSome then s.activeMap else s.otherMap

/-- A line's set (R176). -/
def setOf (l : LineId) : Nat := 256 * ((fld l.ln 10 35).toNat % 3) + (fld l.ln 2 8 ^^^ fld l.ln 10 8).toNat

/-- A line's tag, ADDR[51:17] (R178). -/
def tagOf (l : LineId) : BitVec 35 := fld l.ln 10 35

/-- A line's index within its loaf, ADDR[8:7]. -/
def lidxOf (l : LineId) : BitVec 2 := fld l.ln 0 2

/-- A line's loaf: its space and ADDR[51:9]. -/
def loafOf (l : LineId) : Bool × BitVec 43 := (l.space, fld l.ln 2 43)

/-- The key of a frame: (bank × 768 + set) × 16 + way. -/
def frameKey (bank set way : Nat) : Nat := (bank * 768 + set) * 16 + way
def keyWay (k : Nat) : Nat := k % 16
def keySet (k : Nat) : Nat := k / 16 % 768
def keyBank (k : Nat) : Nat := k / 16 / 768

/-- The roles of a way (R177). -/
inductive Role where
  | cache
  | cairn
  | buffer
  deriving DecidableEq, Repr

def State.role (s : State) (way : Nat) : Role :=
  let c := s.cfg.arr.cairnw.toNat
  let b := s.cfg.arr.bufw.toNat
  if way < 16 - c - b then .cache else if way < 16 - b then .cairn else .buffer

/-! ### Fit classes and encodings (R182 to R185) -/

/-- Every byte of the line equals the byte `p` before it: the line repeats with period `p` bytes (R183). -/
def repeats (d : Line) (p : Nat) : Bool := d >>> (8 * p) == (d &&& (BitVec.allOnes 1024 >>> (8 * p)))

/-- The smallest period of 4, 8 and 16 that fits, with its period code (R183). -/
def period (d : Line) : Option (Nat × Nat) :=
  if repeats d 4 then some (4, 0) else if repeats d 8 then some (8, 1) else if repeats d 16 then some (16, 2) else none

def lineWord (d : Line) (k : Nat) : Word := fld d (32 * k) 32

/-- E0 of the narrow-exponent encodings: the least exponent that is not 0, or 1 (R184). -/
def leastExp (d : Line) : Nat :=
  let es := ((List.range 32).map fun k => (fld (lineWord d k) 23 8).toNat).filter (· != 0)
  es.foldl Nat.min (es.headD 1)

/-- Whether a narrow-exponent encoding that drops `low` mantissa bits fits (R184). -/
def narrowFits (d : Line) (low : Nat) : Bool :=
  let e0 := leastExp d
  (List.range 32).all fun k =>
    let w := lineWord d k
    let e := (fld w 23 8).toNat
    (e == 0 || (e0 ≤ e && e ≤ e0 + 6)) && (w &&& (BitVec.allOnes 32 >>> (32 - low))) == 0

/-- Fit classes, encoded as FIT (R181, R182). -/
def fitOf (d : Line) : BitVec 2 :=
  if d = 0 then 0 else if (period d).isSome || narrowFits d 20 then 1 else if narrowFits d 12 then 2 else 3

/-- The word code of R184 for word `k`, keeping `keep` mantissa bits: sign, offset, upper mantissa. -/
def narrowCode (d : Line) (e0 keep k : Nat) : Nat :=
  let w := lineWord d k
  let e := (fld w 23 8).toNat
  let off := if e == 0 then 0 else e - e0 + 1
  (num (bit w 31) * 8 + off) * 2 ^ keep + (fld w 0 23).toNat / 2 ^ (23 - keep)

/-- The slot layouts of R184: word `k` of `keep` + 4 bits at bit `base + (keep + 4) k`. -/
def narrowSlot (d : Line) (keep base : Nat) : Line :=
  let e0 := leastExp d
  pack 1024 ((0, e0) :: (List.range 32).map fun k => (base + (keep + 4) * k, narrowCode d e0 keep k))

/-- The word a narrow-exponent slot holds for index `k` (R184). -/
def narrowWord (x : Line) (keep base k : Nat) : Word :=
  let c := (x >>> (base + (keep + 4) * k)).toNat % 2 ^ (keep + 4)
  let off := c / 2 ^ keep % 8
  let e := if off == 0 then 0 else (fld x 0 8).toNat + off - 1
  pack 32 [(31, c / 2 ^ (keep + 3)), (23, e), (23 - keep, c % 2 ^ keep)]

def narrowLine (x : Line) (keep base : Nat) : Line :=
  pack 1024 ((List.range 32).map fun k => (32 * k, (narrowWord x keep base k).toNat))

/-- The repeated encoding's slot (R183). -/
def repeatSlot (d : Line) (p code : Nat) : Line :=
  pack 1024 [(0, d.toNat % 2 ^ (8 * p)), (128, code)]

/-- The line of a repeated slot (R183). -/
def repeatLine (x : Line) : Line :=
  let p := if (fld x 128 8) = 0 then 4 else if (fld x 128 8) = 1 then 8 else 16
  pack 1024 ((List.range (128 / p)).map fun j => (8 * p * j, x.toNat % 2 ^ (8 * p)))

/-- The number of slots of a format (R180). -/
def Fmt.slots : Fmt → Nat
  | .invalid | .rframe => 0
  | .raw => 1
  | .half => 2
  | .quarter | .zero => 4

/-- The bits of a slot of a format (R180). -/
def Fmt.bits : Fmt → Nat
  | .invalid | .rframe | .zero => 0
  | .raw => 1024
  | .half => 512
  | .quarter => 256

/-- Whether a slot of a format admits a line of a fit class (R180). -/
def Fmt.admits : Fmt → BitVec 2 → Bool
  | .raw, _ => true
  | .half, c => c.toNat ≤ 2
  | .quarter, c => c.toNat ≤ 1
  | .zero, c => c = 0
  | _, _ => false

/-- The 64-byte array transfers one line of a format takes (R187). -/
def Fmt.xfers : Fmt → Nat
  | .raw => 2
  | .half | .quarter => 1
  | _ => 0

/-- Encoding and slot contents of a line placed in a slot of a format (R185). -/
def encode (f : Fmt) (d : Line) : BitVec 2 × Line :=
  match f with
  | .raw => (0, d)
  | .zero => (3, 0)
  | _ =>
    match period d with
    | some (p, code) => (1, repeatSlot d p code)
    | none => (2, if f = .quarter then narrowSlot d 3 8 else narrowSlot d 11 16)

/-- The line a slot holds (R183 to R185). -/
def decodeSlot (f : Fmt) (enc : BitVec 2) (x : Line) : Line :=
  match f with
  | .raw => x
  | .half => if enc = 1 then repeatLine x else narrowLine x 11 16
  | .quarter => if enc = 1 then repeatLine x else narrowLine x 3 8
  | _ => 0

/-! ### Frames -/

def Meta.clear : Meta :=
  { crust := 0, d := false, psn := false, lu := false, fit := 0, rsv := false, rscope := 0, kn := false }

/-- A slot that holds nothing. -/
def Slot.empty : Slot := { v := false, enc := 0, lidx := 0, mt := .clear }

/-- The contents of slot `i` of a frame. -/
def Frame.slotBits (f : Frame) (i : Nat) : Line := (f.data >>> (f.fmt.bits * i)) &&& (BitVec.allOnes 1024 >>> (1024 - f.fmt.bits))

/-- The line slot `i` holds. -/
def Frame.line (f : Frame) (i : Nat) : Line := decodeSlot f.fmt (nth f.slots i .empty).enc (f.slotBits i)

/-- Writes a line and its metadata into slot `i` of a frame. -/
def Frame.write (f : Frame) (i : Nat) (lidx : BitVec 2) (d : Line) (m : Meta) : Frame :=
  let (enc, x) := encode f.fmt d
  let hole := BitVec.allOnes 1024 >>> (1024 - f.fmt.bits) <<< (f.fmt.bits * i)
  { f with data := (f.data &&& ~~~hole) ||| (x <<< (f.fmt.bits * i))
           slots := upd f.slots i fun _ => ⟨true, enc, lidx, m⟩ }

/-- An empty frame of a format for a loaf. -/
def Frame.fresh (l : LineId) (f : Fmt) (pin : Bool) : Frame :=
  { tag := tagOf l, space := l.space, fmt := f, slots := List.replicate 4 .empty, pin, data := 0 }

/-- The line that slot `i` of the frame at key `k` names (R178). -/
def Frame.lineId (f : Frame) (k i : Nat) : LineId :=
  ⟨f.space, f.tag ++ (BitVec.ofNat 8 (keySet k) ^^^ fld f.tag 0 8) ++ (nth f.slots i .empty).lidx⟩

/-- Slots of the frame that hold a line. -/
def Frame.valid (f : Frame) : List Nat := (List.range f.fmt.slots).filter fun i => (nth f.slots i .empty).v

end Sys2Proof.Machine
end

