-- ==== Sys2Proof/Machine/Arrays.lean ====
section
/-! DEFINITION. The arrays and the snoop filter: lookup, read-out with its checks, in-place writes, placement, replacement,
eviction and the write hold (06, 07 R222 to R225, 10 R296 and R301, 14 R409 to R412). -/
namespace Sys2Proof.Machine

/-! ### Snoop filter (R222 to R224) -/

/-- A line's snoop-filter set (R223). -/
def sfSet (l : LineId) : Nat := (fld l.ln 0 13 ^^^ fld l.ln 13 13).toNat

/-- ADDR[51:20], the tag of a snoop-filter entry. -/
def sfTag (l : LineId) : Word := fld l.ln 13 32

/-- The line a snoop-filter entry tracks (R223). -/
def Sf.line (e : Sf) (key : Nat) : LineId :=
  ⟨e.space, e.tag ++ (BitVec.ofNat 13 (key / 16) ^^^ fld e.tag 0 13)⟩

/-- Key and entry of a tracked line. -/
def State.sfFind (s : State) (l : LineId) : Option (Nat × Sf) :=
  (List.range 16).findSome? fun w =>
    let k := sfSet l * 16 + w
    match tabGet s.home.sf k with
    | some e => if e.tag = sfTag l && e.space = l.space then some (k, e) else none
    | none => none

/-- An entry that records no copy: PDV 0 and OV 0 (R238). -/
def Sf.empty (e : Sf) : Bool := e.pdv = 0 && !e.ov

/-- The snoop filter records no cluster holding the line. -/
def State.untracked (s : State) (l : LineId) : Bool := ((s.sfFind l).map fun p => p.2.empty).getD true

/-- Writes an entry, which is freed when PDV and OV are 0 (R224, last row). -/
def State.sfPut (s : State) (k : Nat) (e : Sf) : State :=
  { s with home.sf := if e.empty then tabDel s.home.sf k else tabPut s.home.sf k e }

/-- The owner an entry names, when OV is 1. -/
def State.ownerOf (s : State) (l : LineId) : Option Id12 :=
  (s.sfFind l).bind fun p => if p.2.ov then some p.2.own else none

/-- Whether a line has an open transient entry: HTR, and a home transient state (R220, R222). -/
def State.transient (s : State) (l : LineId) : Bool := s.home.ht.any fun p => p.2.line = l

/-! ### Pinned classes and use (R296, R301, R302) -/

def Cairn.covers (c : Cairn) (l : LineId) : Bool :=
  !l.space && c.base.toNat ≤ l.ln.toNat && l.ln.toNat < c.base.toNat + c.len.toNat

/-- The cairn a memory-space line lies in. -/
def State.cairnOf (s : State) (l : LineId) : Option (Nat × Cairn) := s.pin.cairns.find? fun p => p.2.covers l

/-- The window a buffer-space line lies in. -/
def State.windowOf (s : State) (l : LineId) : Option Window :=
  if l.space then
    s.cfg.pin.windows.find? fun w => w.first.toNat ≤ (loafOf l).2.toNat && (loafOf l).2.toNat ≤ w.last.toNat
  else none

/-- The class a pinned line counts for: that of its window, of its cairn, or of the range an unpin walk is taking it out of. -/
def State.pinClass (s : State) (l : LineId) : Option (BitVec 4) :=
  if l.space then (s.windowOf l).map fun w => w.cls
  else match s.cairnOf l with
    | some (_, c) => some c.cls
    | none => s.pin.walk.bind fun w => (w.ranges.find? fun r =>
        r.1.toNat ≤ l.ln.toNat && l.ln.toNat < r.1.toNat + r.2.1.toNat).map fun r => r.2.2

/-- Lines of one frame that count for class `c` (R296): the valid lines of a cairn or buffer frame. -/
def State.frameUse (s : State) (c : BitVec 4) (k : Nat) (f : Frame) : Nat :=
  if s.role (keyWay k) = .cache then 0
  else (f.valid.filter fun i => s.pinClass (f.lineId k i) = some c).length

/-- USE[c] (R296): pinned lines of the class, and its reduction frames. -/
def State.use (s : State) (c : BitVec 4) : Nat :=
  s.arr.frames.foldl (fun a p => a + s.frameUse c p.1 p.2) 0 +
    s.knd.ft.foldl (fun a p => a + if p.2.cls = c then p.2.keys.length else 0) 0

def State.quota (s : State) (c : BitVec 4) : Nat := (nth s.cfg.pin.quota c.toNat 0).toNat

/-- Sets a bit of PIN_ERR (R321). -/
def State.pinErr (s : State) (i : Nat) : State := { s with pin.err := setBit s.pin.err i }

/-! ### Frames -/

/-- The frame at a key; one that is not listed is Invalid. -/
def State.frame (s : State) (k : Nat) : Option Frame := tabGet s.arr.frames k

/-- Writes a frame, or removes one that has become Invalid. -/
def State.setFrame (s : State) (k : Nat) (f : Frame) : State :=
  if f.fmt = .invalid then { s with arr.frames := tabDel s.arr.frames k }
  else { s with arr.frames := tabPut s.arr.frames k f }

/-- A clean line-buffer entry is freed when its slot changes otherwise than by its own write-back (R475). -/
def State.lbStale (s : State) (p : Nat → Bool) : State :=
  { s with knd.lb := s.knd.lb.filter fun e => !(e.2.frame.isNone && !e.2.kn && !e.2.bare && p (e.2.key * 4 + e.2.slot)) }

/-- Takes a frame out: Invalid. Corrected rewrites pending in it lapse (R206). -/
def State.dropFrame (s : State) (k : Nat) : State :=
  { (s.lbStale fun q => q / 4 == k) with
    arr.frames := tabDel s.arr.frames k, arr.rewrite := s.arr.rewrite.filter fun p => p.1 != k
    arr.struck := s.arr.struck.filter fun p => p.1 != k }

/-- Sets a slot's V to 0; a frame without a valid slot becomes Invalid (R189 step 5). -/
def State.clearSlot (s : State) (k i : Nat) : State :=
  match s.frame k with
  | none => s
  | some f =>
    let f := { f with slots := upd f.slots i fun _ => .empty }
    if f.valid = [] then s.dropFrame k else (s.lbStale fun q => q == k * 4 + i).setFrame k f

/-- Key and slot of a line resident in a bank (R178). -/
def State.findIn (s : State) (bank : Nat) (l : LineId) : Option (Nat × Nat) :=
  (List.range 16).findSome? fun w =>
    let k := frameKey bank (setOf l) w
    match s.frame k with
    | some f => if f.tag = tagOf l && f.space = l.space then
        (f.valid.find? fun i => (nth f.slots i .empty).lidx = lidxOf l).map fun i => (k, i) else none
    | none => none

/-- Key and slot of a line resident in its effective home bank. -/
def State.find (s : State) (l : LineId) : Option (Nat × Nat) := s.findIn (s.bankOf l) l

/-- The slot of a frame. -/
def State.slotAt (s : State) (k i : Nat) : Option Slot := (s.frame k).map fun f => nth f.slots i .empty

/-- The metadata of a resident line. -/
def State.metaOf (s : State) (l : LineId) : Option Meta :=
  (s.find l).bind fun p => (s.slotAt p.1 p.2).map fun x => x.mt

/-- Changes the metadata of a slot. -/
def State.modMeta (s : State) (k i : Nat) (g : Meta → Meta) : State :=
  match s.frame k with
  | none => s
  | some f => s.setFrame k { f with slots := upd f.slots i fun x => { x with mt := g x.mt } }

/-- 64-byte array transfers for one line of a format in the frame at key `k`: a start of its bank group, energy of kind `kind` (1 read, 2 write) and event 63. -/
def State.xfer (s : State) (k kind : Nat) (cls : BitVec 4) (f : Fmt) : State :=
  (((if f.xfers = 0 then s else s.start (keyBank k / 4)).charge kind cls f.xfers)).evk 63 0 f.xfers

/-- Data word `w` of a frame lies in slot `i` of format `f` (R180). -/
def inSlot (f : Fmt) (i w : Nat) : Bool := f.bits != 0 && w * 64 / f.bits == i

/-- A struck word is a data word or the metadata word of slot `i`; `j` is the slot it was struck in. -/
def wordIn (f : Fmt) (i j : Nat) (e : Ecc) : Bool :=
  match e with
  | .ceData w | .ueData w _ => inSlot f i w.toNat
  | .ceMeta | .ueMeta _ => j == i
  | _ => false

/-- A line-buffer entry holds slot `i` of the frame at key `k` with KN 1 (R322). -/
def lbHolds (k i : Nat) (e : Lb) : Bool := e.frame.isNone && e.kn && !e.bare && e.key == k && e.slot == i

/-- The slot copy is stale: KN is 1 and the entry that holds the line is still there. A slot whose entry was discarded is served as
KN 0 (R413). -/
def State.knAt (s : State) (k i : Nat) : Bool :=
  ((s.slotAt k i).any fun x => x.mt.kn) && s.knd.lb.any fun e => lbHolds k i e.2

/-- Rewrites a line in the slot it has, with its crust and fit class recomputed (R196); pending corrected rewrites of the
slot's words are cancelled (R208). -/
def State.rewrite (s : State) (k i : Nat) (l : LineId) (d : Line) (m : Meta) (cls : BitVec 4) : State :=
  match s.frame k with
  | none => s
  | some f =>
    let f' := f.write i (lidxOf l) d { m with crust := crust l d, fit := fitOf d }
    ({ ((s.lbStale fun q => q == k * 4 + i).setFrame k f') with
        arr.rewrite := s.arr.rewrite.filter fun p => !(p.1 == k && inSlot f.fmt i p.2)
        arr.struck := s.arr.struck.filter fun p => !(p.1 == k && wordIn f.fmt i p.2.1 p.2.2) }).xfer k 2 cls f.fmt

/-! ### Errors of the arrays (R206 to R213, R409 to R411) -/

/-- Ways of a bank that hold nothing: WAYOFF, disabled by self-disable, or closing. -/
def State.wayOut (s : State) (bank way : Nat) : Bool :=
  bit (nth s.cfg.arr.wayoff bank 0) way || bit (nth s.arr.waydis bank 0) way ||
    ((nth s.arr.closing bank none).map fun c => c.way == way).getD false

/-- Whether a way whose count reached 8 closes (R211). -/
def State.mayClose (s : State) (bank way : Nat) : Bool :=
  s.role way = .cache && ((nth s.arr.closing bank none).all fun c => c.way == way) &&
    ones (nth s.arr.waydis bank 0) + num (nth s.arr.closing bank none).isSome < 4 &&
    2 ≤ ((List.range 16).filter fun w => w != way && s.role w = .cache && !s.wayOut bank w).length

/-- A way's count has reached 8: it starts closing (a way that is closing already goes on), or its bank is flagged degraded (R211, R426, R430). -/
def State.wayFull (s : State) (bank way : Nat) : State :=
  if s.mayClose bank way then { s with arr.closing := upd s.arr.closing bank fun c => some (c.getD ⟨way, 0⟩) }
  else ({ s with arr.degraded := setBit s.arr.degraded bank, arr.err := setBit s.arr.err 1 }.suspect 6).scree
    { kind := 0x51, sev := 0, susp := true, bank, way }

/-- A corrected error in a word of a frame is counted to its way (R210). -/
def State.wayCe (s : State) (k : Nat) : State :=
  let b := keyBank k
  let w := keyWay k
  let n := (tabGet s.arr.ceCnt (b * 16 + w)).getD 0
  let s := { s.ceCount with
    arr.ceCnt := if n < 8 then tabPut s.arr.ceCnt (b * 16 + w) (n + 1) else s.arr.ceCnt }
  if n == 7 then s.wayFull b w else s

/-- A corrected error of a read, recorded in ARR_CELAST as well (R207, R209). `kind` is 0 for a data word, 1 for a tag word, 2 for
a metadata word. -/
def State.arrCe (s : State) (k kind : Nat) : State :=
  let t := s.wayCe k
  { t with arr.celast := pack 32 [(0, keySet k), (10, keyWay k), (14, keyBank k), (18, kind), (31, 1)] }

/-- An uncorrectable tag word invalidates the frame; a metadata word that is itself uncorrectable counts as D 1 (R209, R411); an Invalid frame has nothing to lose. -/
def State.tagUe (s : State) (k : Nat) (synd : Byte) (cls : BitVec 4) : State :=
  match s.frame k with
  | none =>
    { s.ueCount.chkErr 5 with arr.err := setBit s.arr.err 3 }.scree
      { kind := 0x13, sev := 1, bank := keyBank k, way := keyWay k, set := keySet k, unit := 1, cls := cls.toNat, synd := synd.toNat }
  | some f =>
    let bad (i : Nat) : Bool := s.arr.struck.any fun x => x.1 == k && x.2.1 == i && match x.2.2 with
      | .ueMeta _ => true
      | _ => false
    let clean := !f.pin && !f.space && (f.valid.all fun i => !(nth f.slots i .empty).mt.d && !bad i)
    let s := (s.ueCount.dropFrame k).chkErr 5
    let s := { s with arr.err := setBit s.arr.err 3 }
    s.scree { kind := if clean then 0x13 else 0x14, sev := if clean then 1 else 3, bank := keyBank k, way := keyWay k
              set := keySet k, unit := 1, cls := cls.toNat, synd := synd.toNat }

/-- An uncorrectable metadata word makes its line poisoned: zeros, PSN 1, D 1 (R209); D stays 0 for a buffer-space line
(R181). A line-buffer entry that held the line goes with it: KN stood in that word. -/
def State.metaUe (s : State) (k i : Nat) (synd : Byte) (cls : BitVec 4) : State :=
  match s.frame k with
  | none => s.ueCount
  | some f =>
    let l := f.lineId k i
    if !(nth f.slots i .empty).v then s.ueCount else
    let s := { s with knd.lb := s.knd.lb.filter fun e => !lbHolds k i e.2 }
    let s := (s.ueCount.chkErr 5).rewrite k i l 0 { Meta.clear with psn := true, d := !l.space } cls
    s.scree { kind := 0x12, sev := 2, line := some l, bank := keyBank k, way := keyWay k, set := keySet k, unit := 2
              cls := cls.toNat, synd := synd.toNat }

/-- The metadata of a line that is rewritten as zeros with poison: its release record is lost (R207, R267, R409). -/
def Meta.zeroed (m : Meta) : Meta := { m with psn := true, rsv := false, rscope := 0 }

/-- The line of a slot cannot be used and its memory copy can: V 0, and the request refetches (R207). -/
def State.refetch (s : State) (k i : Nat) (r : Scree) : State := ((s.clearSlot k i).ev 57).scree r

/-- An uncorrectable data word of a slot (R207, R410). A stale data word (KN 1) is counted and poisons nothing (R417);
a slot whose line-buffer entry is gone is served as KN 0 (R413). -/
def State.dataUe (s : State) (k i w : Nat) (synd : Byte) (cls : BitVec 4) : State :=
  match s.frame k with
  | none => s.ueCount
  | some f =>
    let x := nth f.slots i .empty
    let l := f.lineId k i
    let r : Scree := { kind := 0x10, sev := 1, line := some l, bank := keyBank k, way := keyWay k, set := keySet k
                       word := w, cls := cls.toNat, synd := synd.toNat }
    let s := s.ueCount.chkErr 5
    if !x.v || x.mt.psn || s.knAt k i then s
    else if !l.space && !x.mt.d then s.refetch k i r
    else (s.rewrite k i l 0 x.mt.zeroed cls).scree { r with kind := 0x11, sev := 2 }

/-- The valid slot of a frame that data word `w` belongs to (R180, R206). -/
def State.slotOfWord (s : State) (k w : Nat) : Option Nat :=
  (s.frame k).bind fun f => f.valid.find? fun i => inSlot f.fmt i w

/-- A finding of the SECDED check on one word of a frame (R206, R207, R209); the slot of a data word follows from its number, `i` is
that of a metadata word. A data word of no valid slot is counted only (R206); a data word of an RFRAME frame belongs to its accumulators
(R186), and its corrected error is recorded and rewritten as that of any line (R207, R410). -/
def State.arrEcc (s : State) (k i : Nat) (e : Ecc) (cls : BitVec 4) : State :=
  match e with
  | .clean => s
  | .ceData w =>
    match s.slotOfWord k w.toNat with
    | some _ => let t := s.arrCe k 0
      { t with arr.rewrite := t.arr.rewrite ++ [(k, w.toNat)] }
    | none =>
      if (s.frame k).any fun f => f.fmt == .rframe then
        let t := s.arrCe k 0
        { t with arr.rewrite := t.arr.rewrite ++ [(k, w.toNat)] }
      else s.wayCe k
  | .ceTag => s.arrCe k 1
  | .ceMeta => s.arrCe k 2
  | .ueData w synd =>
    match s.slotOfWord k w.toNat with
    | some j => s.dataUe k j w.toNat synd cls
    | none => s.ueCount
  | .ueMeta synd => s.metaUe k i synd cls
  | .ueTag synd => s.tagUe k synd cls

/-- Words that upsets have struck (R206 to R209): whichever read meets them next reports them. -/
def State.strike (s : State) (c : Chk) : State :=
  { s with arr.struck := s.arr.struck ++ c.more, chk.upsets := s.chk.upsets ++ c.ups }

/-- The tag words and metadata words of a frame, which every lookup of its set reads. -/
def tagWord : Ecc → Bool
  | .ceTag | .ueTag _ | .ceMeta | .ueMeta _ => true
  | _ => false

/-- The struck words of a frame for which `p` holds are met by a read, and their findings taken one by one: those still to be taken are
known as bad (R411). -/
def State.meet (s : State) (k : Nat) (p : Nat → Ecc → Bool) (cls : BitVec 4) : State :=
  if s.arr.struck = [] then s
  else (s.arr.struck.filter fun x => x.1 == k && p x.2.1 x.2.2).foldl
    (fun s x => { s with arr.struck := s.arr.struck.erase x }.arrEcc k x.2.1 x.2.2 cls) s

/-- A lookup reads the tag and metadata words of every frame of the set (R209). -/
def State.meetTags (s : State) (bank set : Nat) (cls : BitVec 4) : State :=
  if s.arr.struck = [] then s
  else ((List.range 16).map (frameKey bank set)).foldl (fun s k => s.meet k (fun _ e => tagWord e) cls) s

/-- The crust check of a read-out at Standard and Full (R409). -/
def State.crustCheck (s : State) (k i : Nat) (cls : BitVec 4) : State :=
  match s.frame k with
  | none => s
  | some f =>
    let x := nth f.slots i .empty
    let l := f.lineId k i
    let c := crust l (f.line i)
    if s.cfg.chk.level.toNat < 2 || !x.v then s
    else if c = x.mt.crust then s.ev 148
    else
      let s := s.ev 148
      let r : Scree := { kind := 0x18, sev := 1, line := some l, bank := keyBank k, way := keyWay k, set := keySet k
                         cls := cls.toNat, detail := x.mt.crust.toNat + c.toNat * 2 ^ 32 }
      if x.mt.psn then (s.chkErr 4).ueCount
      else if !l.space && !x.mt.d then (s.chkErr 4).refetch k i r
      else ((s.chkErr 4).rewrite k i l 0 x.mt.zeroed cls).scree { r with sev := 2 }

/-- What a read of a resident line gives: the line, its poison and metadata, or nothing when it is no longer resident. -/
structure Read where
  data : Line
  mt   : Meta

/-- Reads a resident line out of the array, with the checks of R207, R209 and R409. `none` means that the slot or the frame
is gone, and the request goes on as a miss. -/
def State.readOut (s : State) (k i : Nat) (e : Ecc) (cls : BitVec 4) : State × Option Read :=
  let s := match s.frame k with
    | some f => s.xfer k 1 cls f.fmt
    | none => s
  let s := if s.arr.struck = [] then s.arrEcc k i e cls
    else (s.arrEcc k i e cls).meet k (fun j x => tagWord x || (s.frame k).any fun f => wordIn f.fmt i j x) cls
  let s := s.crustCheck k i cls
  match s.frame k with
  | none => (s, none)
  | some f =>
    let x := nth f.slots i .empty
    if x.v then (s, some ⟨f.line i, x.mt⟩) else (s, none)

/-- A tag lookup, with its energy, what it meets, and its events (40 lookups, 41 hits, 42 misses). -/
def State.lookup (s : State) (l : LineId) (cls : BitVec 4) : State :=
  let s := s.meetTags (s.bankOf l) (setOf l) cls
  ((s.charge 3 cls 1).ev 40).ev (if (s.find l).isSome then 41 else 42)

/-! ### The write hold (R127, R404) -/

/-- The write tags that no held line uses. -/
def State.freeTags (s : State) : List Nat := (List.range 64).filter fun t => s.mp.hold.all fun w => w.tag != t

/-- Puts a line into the write hold under the lowest free tag; the tag. While the port is down it is to be issued before any other
command when the port comes up (R128). -/
def State.hold (s : State) (l : LineId) (d : Line) (pois : Bool) (c : Word) (cls : BitVec 4) (why : Cause) : State × Nat :=
  let t := s.freeTags.headD 64
  ({ s with mp.hold := s.mp.hold ++ [{ tag := t, line := l, data := d, pois, crust := c, cls, ord := s.mp.ord, rdy := s.mp.ord, iss := none
                                       again := !s.ring.mpUp, st := .ready, wdSent := false, errs := 0, comps := [], cause := why }]
            mp.ord := s.mp.ord + 1 }, t)

/-! ### Eviction (R194, R199) -/

/-- Whether a line lies in an enabled last-use drop region (R199, R214). -/
def State.inDrop (s : State) (l : LineId) : Bool :=
  !l.space && s.cfg.arr.regions.any fun r => r.en && r.first.toNat ≤ (lineAddr l).toNat && (lineAddr l).toNat ≤ r.last.toNat

/-- Whether evicting a slot writes its line to memory (R194), which a last-use drop does not (R199). -/
def State.evictWrites (s : State) (k i : Nat) (f : Frame) : Bool :=
  let m := (nth f.slots i .empty).mt
  let l := f.lineId k i
  m.d && !(m.lu && s.inDrop l && s.untracked l)

/-- The write tags an eviction of the whole frame needs. -/
def State.evictNeeds (s : State) (k : Nat) : Nat :=
  match s.frame k with
  | none => 0
  | some f => (f.valid.filter fun i => s.evictWrites k i f).length

/-- The write tags there are suffice to evict a frame, whose tag and metadata words are read first: an uncorrectable metadata word leaves a line
to write (R194, R209). -/
def State.evictRoom (s : State) (k : Nat) (cls : BitVec 4) : Bool :=
  (s.meet k (fun _ e => tagWord e) cls).evictNeeds k ≤ s.freeTags.length

/-- Evicts one valid line of a frame: written to memory with its crust and poison, or dropped (R194, R199). -/
def State.evictLine (s : State) (k i : Nat) (cls : BitVec 4) (why : Cause) : State :=
  let s := s.meet k (fun _ e => tagWord e) cls
  match s.frame k with
  | none => s
  | some f =>
    if !(nth f.slots i .empty).v then s
    else if s.evictWrites k i f then
      match s.readOut k i .clean cls with
      | (s, some r) => ((s.hold (f.lineId k i) r.data r.mt.psn r.mt.crust cls why).1.ev 50).clearSlot k i
      | (s, none) => s
    else (if (nth f.slots i .empty).mt.d then s.ev 51 else s).clearSlot k i

/-- Evicts every valid line of a frame, which becomes Invalid. -/
def State.evictFrame (s : State) (k : Nat) (cls : BitVec 4) (why : Cause) : State :=
  match s.frame k with
  | none => s
  | some f => (f.valid.foldl (fun s i => s.evictLine k i cls why) s).dropFrame k

/-! ### Replacement (R191 to R193) -/

/-- The loaf lock of a bank does not cover this loaf, or there is none (R190). -/
def State.unlocked (s : State) (bank : Nat) (lf : Bool × BitVec 43) : Bool :=
  s.arr.locks.all fun p => !(p.1 == bank && loafOf p.2 == lf)

/-- A frame is eligible as a victim (R192). `bypass` leaves out the condition on closing, for R212. -/
def State.eligible (s : State) (k : Nat) (bypass : Bool) : Bool :=
  let b := keyBank k
  let w := keyWay k
  s.role w = .cache && (bypass || !s.wayOut b w) &&
  match s.frame k with
  | none => true
  | some f => f.fmt != .rframe && f.valid.all fun i =>
      let l := f.lineId k i
      !s.knAt k i && !s.transient l && s.unlocked b (loafOf l)

/-- The tier of an eligible frame (R193). -/
def State.tier (s : State) (k : Nat) : Nat :=
  match s.frame k with
  | none => 1
  | some f => if f.valid.all fun i => (nth f.slots i .empty).mt.lu then 2 else 3

/-- The eligible frames of a set but one, in ascending way order. -/
def State.victims (s : State) (bank set : Nat) (excl : Option Nat) : List Nat :=
  ((List.range 16).map (frameKey bank set)).filter fun k => s.eligible k false && excl != some k

/-- Selects a victim: steps the bank's LFSR and takes the frame of the lowest non-empty tier at ⌊state × n / 65,536⌋ (R193). -/
def State.choose (s : State) (bank : Nat) (ks : List Nat) : State × Nat :=
  let best := ks.foldl (fun a k => Nat.min a (s.tier k)) 3
  let tier := ks.filter fun k => s.tier k == best
  let x := lfsrStep (nth s.arr.lfsr bank 0)
  (({ s with arr.lfsr := upd s.arr.lfsr bank fun _ => x }.ev 46).ev (46 + best), nth tier (x.toNat * tier.length / 65536) 0)

/-- Counts a placement that took a tier-3 victim (R306). -/
def State.thrashed (s : State) (bank : Nat) : State :=
  let n := nth s.arr.thrash bank 0 + 1
  let s := { s with arr.thrash := upd s.arr.thrash bank fun _ => n }
  if s.cfg.pin.thrlim != 0 && n == 16 * s.cfg.pin.thrlim.toNat then
    { (s.pinErr 5) with pin.thrst := pack 24 [(0, bank), (4, n)] }
  else s

/-! ### Placement (R188, R189, R195, R301, R226, R291) -/

/-- A line to be placed. `mt` gives D, PSN, LU, RSV and RSCOPE; crust and fit class are computed. `vic` is the victim a waiting
placement has selected (R194). -/
structure Place where
  l    : LineId
  bank : Nat
  data : Line
  mt   : Meta
  cls  : BitVec 4
  why  : Cause
  vic  : Option Nat := none

/-- How a placement ends. -/
inductive PlaceRes where
  /-- Placed; under LX12 mode with the tag of its write to memory. -/
  | done (tag : Option Nat)
  /-- Completed without allocation, with the tag of its write to memory when it was dirty (R195). -/
  | mem (tag : Option Nat)
  /-- Waits for write tags or a loaf lock, keeping its victim (R194). -/
  | wait (vic : Option Nat)
  /-- Refused (R301): the completion code. -/
  | refuse (code : BitVec 4)
  deriving DecidableEq, Repr

/-- Writes the line into slot `i` of frame `f` at key `k` with the metadata of the placement; corrected rewrites pending in the
slot's words are cancelled (R208). -/
def State.install (s : State) (p : Place) (k i : Nat) (f : Frame) (m : Meta) : State :=
  { s.setFrame k (f.write i (lidxOf p.l) p.data { m with crust := crust p.l p.data, fit := fitOf p.data }) with
    arr.rewrite := s.arr.rewrite.filter fun q => !(q.1 == k && inSlot f.fmt i q.2)
    arr.struck := s.arr.struck.filter fun q => !(q.1 == k && wordIn f.fmt i q.2.1 q.2.2) }.xfer k 2 p.cls f.fmt

/-- A write into a line held in a cairn way under LX12 mode also goes to memory, and the line keeps D 0 (R291). `fin` makes
the array write with the metadata given. -/
def State.through (s : State) (p : Place) (way : Nat) (fin : State → Meta → State) : State × PlaceRes :=
  let m := { p.mt with d := p.mt.d && !p.l.space }
  if s.cfg.compat && s.role way = .cairn && m.d then
    if s.freeTags = [] then (s, .wait p.vic)
    else
      let (s, t) := s.hold p.l p.data m.psn (crust p.l p.data) p.cls p.why
      (fin s { m with d := false }, .done (some t))
  else (fin s m, .done none)

/-- The lowest free frame of a role in a set: Invalid, and its way not out of service (R299, R301). -/
def State.freeFrame (s : State) (r : Role) (bank set : Nat) : Option Nat :=
  ((List.range 16).map (frameKey bank set)).find? fun k =>
    s.role (keyWay k) = r && !s.wayOut bank (keyWay k) && (s.frame k).isNone

/-- A free slot of a cache-way frame of the loaf that admits the line: ZERO before QUARTER before HALF, then the lowest way,
then the lowest slot (R188 rule 3). -/
def State.mergeSlot (s : State) (p : Place) (excl : Option Nat) : Option (Nat × Nat) :=
  let fit := fitOf p.data
  [Fmt.zero, .quarter, .half].findSome? fun fmt =>
    ((List.range 16).map (frameKey p.bank (setOf p.l))).findSome? fun k =>
      match s.frame k with
      | some f =>
        if f.fmt = fmt && fmt.admits fit && f.tag = tagOf p.l && f.space = p.l.space && excl != some k &&
            s.role (keyWay k) = .cache && !s.wayOut p.bank (keyWay k) then
          ((List.range fmt.slots).find? fun i => !(nth f.slots i .empty).v).map fun i => (k, i)
        else none
      | none => none

/-- The smallest format that admits a line (R188 rule 4); RAW without compression (R186). -/
def State.newFmt (s : State) (d : Line) : Fmt :=
  if !s.cfg.arr.comp then .raw
  else match (fitOf d).toNat with
    | 0 => .zero
    | 1 => .quarter
    | 2 => .half
    | _ => .raw

/-- The event of a frame placed in a format (58 to 61). -/
def fmtEvent : Fmt → Nat
  | .zero => 58
  | .quarter => 59
  | .half => 60
  | _ => 61

/-- The bank's loaf lock is free for a placement of line `l`: not held, or held by that placement itself (R190). -/
def State.lockFree (s : State) (bank : Nat) (l : LineId) : Bool := s.arr.locks.all fun q => q.1 != bank || q.2 == l

/-- A line's frames may be used: no placement of another line holds the lock on its loaf (R190). -/
def State.lockOpen (s : State) (l : LineId) : Bool :=
  s.arr.locks.all fun q => !(q.1 == s.bankOf l && loafOf q.2 == loafOf l) || q.2 == l

def State.unlock (s : State) (bank : Nat) : State := { s with arr.locks := s.arr.locks.filter fun q => q.1 != bank }

/-- A split holds the loaf lock from its first step (R189 step 1). -/
def State.lockFor (s : State) (p : Place) (old : Option (Nat × Nat)) : State :=
  if old.isSome then { s with arr.locks := (s.unlock p.bank).arr.locks ++ [(p.bank, p.l)] } else s

/-- A placement in a cache way that finds no eligible frame (R195), or a split that finds none (R189): a dirty line goes to
memory. -/
def State.noAlloc (s : State) (p : Place) (old : Option (Nat × Nat)) : State × PlaceRes :=
  let m := { p.mt with d := p.mt.d && !p.l.space }
  if (m.d || old.isSome) && s.freeTags = [] then (s, .wait none)
  else
    let s := match old with
      | some (k, i) => ({ (s.clearSlot k i) with arr.err := setBit s.arr.err 4 }.ev 54).unlock p.bank
      | none => s
    let s := { (s.ev 55) with arr.err := setBit s.arr.err 2 }
    if m.d || old.isSome then
      let (s, t) := s.hold p.l p.data m.psn (crust p.l p.data) p.cls p.why
      (s, .mem (some t))
    else (s, .mem none)

/-- Rule 4 of R188: a frame by replacement, in the smallest format that admits the line. `old` is the slot a split takes the
line out of; the other lines of that frame stay (R189). -/
def State.takeFrame (s : State) (p : Place) (old : Option (Nat × Nat)) : State × PlaceRes :=
  let excl := old.map fun o => o.1
  let s := s.lockFor p old
  let ks := s.victims p.bank (setOf p.l) excl
  if ks = [] then s.noAlloc p old
  else
    let (s, v) := match p.vic with
      | some v => if ks.contains v then (s, v) else s.choose p.bank ks
      | none => s.choose p.bank ks
    let s := s.meet v (fun _ e => tagWord e) p.cls
    if s.evictNeeds v > s.freeTags.length then
      (s, .wait (some v))
    else
      let s := if s.tier v == 3 then s.thrashed p.bank else s
      let s := s.evictFrame v p.cls (if p.why = .walk then .walk else .victim)
      let s := match old with
        | some (k, i) => (s.clearSlot k i).unlock p.bank
        | none => s
      let fmt := s.newFmt p.data
      let m := { p.mt with d := p.mt.d && !p.l.space }
      ((s.install p v 0 (.fresh p.l fmt false) m).ev (fmtEvent fmt), .done none)

/-- Placement in cache ways (R188 rules 3 and 4). -/
def State.placeCache (s : State) (p : Place) (old : Option (Nat × Nat)) : State × PlaceRes :=
  if !s.unlocked p.bank (loafOf p.l) && !s.lockFree p.bank p.l then (s, .wait p.vic)
  else match s.mergeSlot p (old.map fun o => o.1) with
    | some (k, i) =>
      if !s.lockFree p.bank p.l then (s, .wait p.vic) else
      let s := match old with
        | some (ok, oi) => (s.clearSlot ok oi).unlock p.bank
        | none => s
      match s.frame k with
      | some f => ((s.install p k i f { p.mt with d := p.mt.d && !p.l.space }).ev 52, .done none)
      | none => (s, .wait p.vic)
    | none => if old.isSome && !s.lockFree p.bank p.l then (s, .wait p.vic) else s.takeFrame p old

/-- Placement of a line in the ways its kind belongs to (R188, R301). A cairn line that is resident in a compressed slot of a cache way,
and whose new contents its format does not admit, is split within the cache ways, whatever USE and the cairn ways are: R301 rewrites a
resident line in place in every row (DESIGN CHOICE, log 106). -/
def State.place (s : State) (p : Place) : State × PlaceRes :=
  match s.findIn p.bank p.l with
  | some (k, i) =>
    if !s.unlocked p.bank (loafOf p.l) && !s.lockFree p.bank p.l then (s, .wait p.vic) else
    match s.frame k with
    | none => (s, .wait p.vic)
    | some f =>
      if f.fmt.admits (fitOf p.data) then
        let m := if s.role (keyWay k) = .cache then p.mt else { p.mt with lu := false }
        s.through { p with mt := m } (keyWay k) fun s m => s.rewrite k i p.l p.data m p.cls
      else
        let r := s.placeCache p (some (k, i))
        (match r.2 with
          | .done _ | .mem _ => r.1.ev 53
          | _ => r.1, r.2)
  | none =>
    let pinned (w : Nat) (s : State) (m : Meta) : State :=
      s.install p w 0 (.fresh p.l .raw true) { m with lu := false }
    match s.pinClass p.l, s.cairnOf p.l, p.l.space with
    | some c, _, true =>
      if s.use c ≥ s.quota c then ((s.pinErr 0).evq 97 6, .refuse 6)
      else match s.freeFrame .buffer p.bank (setOf p.l) with
        | some k => (((pinned k s { p.mt with d := false }).ev 96), .done none)
        | none => ((s.pinErr 8).evq 97 6, .refuse 6)
    | none, _, true => ((s.pinErr 3).evq 97 5, .refuse 5)
    | _, some (_, cn), false =>
      if s.use cn.cls ≥ s.quota cn.cls then
        let r := s.placeCache p none
        (match r.2 with
          | .wait _ => r.1
          | _ => (r.1.pinErr 0).ev 95, r.2)
      else match s.freeFrame .cairn p.bank (setOf p.l) with
        | some k =>
          let r := s.through p (keyWay k) (pinned k)
          (match r.2 with
            | .done _ => r.1.ev 93
            | _ => r.1, r.2)
        | none =>
          let r := s.placeCache p none
          (match r.2 with
            | .wait _ => r.1
            | _ => (r.1.pinErr 4).ev 94, r.2)
    | _, none, false => s.placeCache p none

end Sys2Proof.Machine
end

