-- ==== Sys2Proof/Machine/Ports.lean ====
section
/-! DEFINITION. The messages the slice sends, the arbiters of its ports, and injection: ring out-links and near ports (02,
13 R387 to R394 and R479). -/
namespace Sys2Proof.Machine

/-! ### Flits (R39 to R52) -/

/-- A flit: common header word, further header fields, and body fields at body bit positions (R39). -/
def mkFlit (vc : Nat) (dtyp : Bool) (dst : Id12) (n : TxName) (fidx : Nat) (last : Bool) (more body : List (Nat × Nat)) :
    Flit :=
  pack 640 ([(0, vc), (2, num dtyp), (3, dst.toNat), (15, num n.sty), (16, n.src.toNat), (28, n.txn.toNat), (40, fidx),
    (44, num last)] ++ more ++ body.map fun p => (128 + p.1, p.2))

def flitVc (f : Flit) : Nat := (fld f 0 2).toNat
def flitDtyp (f : Flit) : Bool := bit f 2
def flitDst (f : Flit) : Id12 := fld f 3 12
def flitName (f : Flit) : TxName := ⟨bit f 15, fld f 16 12, fld f 28 12⟩
def flitFidx (f : Flit) : BitVec 4 := fld f 40 4
def flitBnc (f : Flit) : Nat := (fld f 45 3).toNat
def flitBcast (f : Flit) : Bool := bit f 48
def flitDkind (f : Flit) : BitVec 3 := fld f 98 3

/-- A declined flit: BNC up by one, saturating at 7 (R39, R58). -/
def bounced (f : Flit) : Flit :=
  if flitBnc f ≥ 7 then f else (f &&& ~~~(7#640 <<< 45)) ||| (BitVec.ofNat 640 (flitBnc f + 1) <<< 45)

/-- A payload-carrying or line DAT flit (R41, R42). -/
def datFlit (dtyp : Bool) (dst : Id12) (n : TxName) (fidx : Nat) (last : Bool) (dkind : Nat) (pois crv : Bool) (c : Word)
    (body : Body) : Flit :=
  mkFlit 3 dtyp dst n fidx last
    ([(64, num pois), (98, dkind)] ++ if last then [(65, num crv), (66, c.toNat)] else []) [(0, body.toNat)]

/-- A line as two DAT flits (R42). -/
def lineFlits (dtyp : Bool) (dst : Id12) (n : TxName) (dkind : Nat) (d : Line) (pois crv : Bool) (c : Word) : List Flit :=
  [datFlit dtyp dst n 0 false dkind pois crv c (fld d 0 512), datFlit dtyp dst n 1 true dkind pois crv c (fld d 512 512)]

/-- A response flit (R52). -/
def rspFlit (dtyp : Bool) (dst : Id12) (n : TxName) (rtype rcode : Nat) (pois : Bool) (grant dcnt : Nat) (scopew : Bool)
    (swdie : Nat) (rval : BitVec 64) : Flit :=
  mkFlit 2 dtyp dst n 0 true [] [(0, rtype), (5, rcode), (9, num pois), (10, grant), (13, dcnt), (17, num scopew),
    (18, swdie), (64, rval.toNat)]

/-- A snoop flit of entry `idx` (R50). -/
def snpFlit (me : Id12) (idx : Nat) (sop : BitVec 2) (relay bcast dtyp : Bool) (dst : Id12) (l : LineId) (fwdid fwdtxn : BitVec 12)
    (fwdsty fwd : Bool) : Flit :=
  mkFlit 1 dtyp dst ⟨true, me, BitVec.ofNat 12 idx⟩ 0 true [(48, num bcast)]
    [(0, sop.toNat), (2, num relay), (3, num l.space), (4, (lineAddr l).toNat), (56, fwdid.toNat), (68, fwdtxn.toNat),
      (80, num fwdsty), (81, num fwd), (82, me.toNat)]

/-- A request flit the slice sends as a requester (R43): a move or a landing-tally request. -/
def reqFlit (dst : Id12) (n : TxName) (body : List (Nat × Nat)) : Flit := mkFlit 0 true dst n 0 true [] body

/-! ### Ready messages -/

/-- The port by which a response leaves: that of arrival (R20). -/
def portOf : Src → BitVec 3
  | .ring => 0
  | .near .a => 1
  | .near .b => 2

/-- The out-link of a message for a destination: a snoop broadcast goes east, another message in the shorter direction, which the
manual gives no positions for (R228, R394; log 43). -/
def State.linkFor (s : State) (f : Flit) : Dir :=
  if !flitBcast f && Config.freeWest s.ring.tieSlice (flitDtyp f) (flitDst f) then .west else .east

/-- The message with its out-link decided: port 0 has two, and a rule may have named one (R394). -/
def State.routed (s : State) (m : Msg) : Msg :=
  if m.port = 0 && m.link.isNone then { m with link := some (s.linkFor (m.flits.headD 0)) } else m

/-- A message becomes ready at its port's arbiter. -/
def State.send (s : State) (m : Msg) : State := { s with port.ready := s.port.ready ++ [s.routed m] }

/-- A message of flits of one virtual channel on the ring. -/
def State.sendRing (s : State) (cls : BitVec 4) (link : Option Dir) (fs : List Flit) : State :=
  s.send { port := 0, cls, vc := BitVec.ofNat 2 (flitVc (fs.headD 0)), flits := fs, pay := [], link, line := none, sample := false, own := true, sad := false }

/-- A request of the slice with its payload: one message, so that both leave on one out-link (R48). -/
def State.sendReq (s : State) (cls : BitVec 4) (req : Flit) (pay : List Flit) : State :=
  s.send { port := 0, cls, vc := 0, flits := [req], pay, link := none, line := none, sample := false, own := true, sad := false }

/-- A message of the ring station or the link layer: a flit passed on, or an answer the station gives (R107, R144, R229). -/
def State.relayRing (s : State) (cls : BitVec 4) (link : Option Dir) (fs : List Flit) : State :=
  s.send { port := 0, cls, vc := BitVec.ofNat 2 (flitVc (fs.headD 0)), flits := fs, pay := [], link, line := none, sample := false, own := false, sad := false }

/-! ### What the ejection queues hold and keep free (R57 to R59, R221) -/

/-- The home die of the slice. -/
def State.homeDie (s : State) : Nat := s.ring.tieDie.toNat

/-- Sweeps of other dies still pending. -/
def State.relayed (s : State) (h : Ht) : BitVec 16 := clrBit h.sweep s.homeDie

/-- A flit in a DAT queue is line data of a transaction of this slice, not payload (R42, R235). -/
def State.isLineData (s : State) (f : Flit) : Bool :=
  (flitName f).sty && (flitName f).src = s.ring.tieSlice && flitDkind f = 0

/-- Answers an entry that has sent its snoop or its move still expects in the RSP queue, and line data in the DAT queue (R59,
R221). -/
def State.rspWant (s : State) (h : Ht) : Nat :=
  match h.why with
  | .move _ wait _ => num (h.st = .move && !wait)
  | _ => num (h.expect && h.ans.isNone) + ones (s.relayed h)
def datWant (h : Ht) : Nat := if h.expect && h.ans.isNone && h.sop != 2 && !h.fwd then 2 else 0

/-- Flits of a transaction of this slice that have arrived and are not taken. -/
def State.rspArrived (s : State) (n : Nat) : Nat := (s.port.rx.rsp.filter fun q => (flitName q.f).txn.toNat = n).length
def State.datArrived (s : State) (n : Nat) : Nat :=
  (s.port.rx.dat.filter fun q => s.isLineData q.f && (flitName q.f).txn.toNat = n).length

/-- DAT entries of a receive side that payload uses or has reserved. -/
def State.payUsed (s : State) (x : Rx) : Nat :=
  (x.dat.filter fun q => !s.isLineData q.f).length + x.resv.foldl (fun a c => a + c.n) 0 +
    x.pay.foldl (fun a p => a + p.flits.length) 0

/-- Tally requests of a group that are outstanding: completions expected, and flits of line data. -/
def Land.rspWant (e : Land) : Nat := num e.add.isSome + num (e.tally = .reading || e.tally = .subbing || e.stale)
def Land.datWant (e : Land) : Nat := if e.tally = .reading || e.stale then 2 else 0

/-- RSP entries of the ring station in use or reserved, but for those of the entry `but`. -/
def State.rspUsed (s : State) (but : Nat) : Nat :=
  (s.home.ht.filter fun p => p.1 != but).foldl
    (fun a p => a + Nat.max (if p.2.sw then 0 else s.rspWant p.2) (s.rspArrived p.1)) 0 +
  s.land.tab.foldl (fun a p => a + p.2.rspWant) 0 +
  (s.port.rx.rsp.filter fun q => (flitName q.f).txn.toNat < 0xE00 && (tabGet s.home.ht (flitName q.f).txn.toNat).isNone).length

/-- DAT entries of the ring station in use or reserved, but for those of the entry `but`. -/
def State.datUsed (s : State) (but : Nat) : Nat :=
  s.payUsed s.port.rx +
  (s.home.ht.filter fun p => p.1 != but).foldl
    (fun a p => a + Nat.max (if p.2.sw then 0 else datWant p.2) (s.datArrived p.1)) 0 +
  s.land.tab.foldl (fun a p => a + p.2.datWant) 0

/-- The station can reserve what a snoop's answers need (R57, R221). -/
def State.canReserve (s : State) (idx : Nat) (h : Ht) : Bool :=
  s.rspUsed idx + s.rspWant h ≤ 32 && s.datUsed idx + datWant h ≤ 64

/-- The station can reserve what a request of the slice needs: a completion, and for a read its line (R59). -/
def State.roomFor (s : State) (read : Bool) : Bool := s.rspUsed 512 < 32 && (!read || s.datUsed 512 + 2 ≤ 64)

/-! ### Landing groups (R278 to R284) -/

/-- A final write (R278). -/
def Req.final (r : Req) : Bool := r.opc = 6 && r.ext && r.land && r.lfin

def Land.isReset (e : Land) : Bool := e = Land.reset

/-- Sets a bit of CFG_LANDERR and records the group (R293): 0 TIMEOUT, 1 DUPFIN, 2 LANDOFF, 3 TALLYERR. -/
def State.landErr (s : State) (g i : Nat) : State :=
  { s with land.err := setBit s.land.err i, land.last := pack 8 [(0, g), (6, i)] }

def State.landAt (s : State) (g : Nat) : Land := (tabGet s.land.tab g).getD .reset

def State.setLand (s : State) (g : Nat) (e : Land) : State :=
  { s with land.tab := if e.isReset then tabDel s.land.tab g else tabPut s.land.tab g e }

/-- Tally requests are sent in RUNNING and QUIESCING only (R282). -/
def State.tallyRuns (s : State) : Bool := s.ctl.st = .running || s.ctl.st = .quiescing

/-- Sends a tally request of a group: a volatile READ_ONCE, or an ATOMIC with the 64-bit integer add (R282, R284). `k` is the
operand, `txn` its TXN. -/
def State.tallySend (s : State) (g txn : Nat) (k : BitVec 64) (read : Bool) : State :=
  let base := (s.land.ltHi.setWidth 52 <<< (32 : Nat)) ||| ((s.land.ltLo &&& 0xFFFFE000#32).setWidth 52)
  let a := base + BitVec.ofNat 52 (128 * g)
  let sp := bit s.land.ltLo 1
  let dst := (s.homeIn s.activeMap (lineOf sp a)).1
  let n : TxName := ⟨true, s.ring.tieSlice, BitVec.ofNat 12 txn⟩
  let cls := fld s.land.landcfg 12 4
  let fields := [(5, num sp), (6, cls.toNat), (32, a.toNat)]
  if read then s.sendReq cls (reqFlit dst n (fields ++ [(0, 2), (13, 1)])) []
  else
    s.sendReq cls (reqFlit dst n (fields ++ [(0, 8), (27, 1), (174, 1), (182, 3)]))
      [datFlit true dst n 0 true 2 false false 0 (k.setWidth 512)]

/-- A trigger of R282: the unsent count of a group is sent when it is not 0 and no add is outstanding, and U returns to 0. A
trigger that cannot send yet, because an add is outstanding, the state is another, or no RSP entry is free (R59), is kept. -/
def State.tallyAdd (s : State) (g : Nat) : State :=
  let e := s.landAt g
  if e.u = 0 then s
  else if s.tallyRuns && e.add.isNone && s.roomFor false then
    ((s.setLand g { e with u := 0, flush := false, add := some e.u, again := false, due := false }).tallySend g (0xE00 + g)
      (e.u.setWidth 64) false).ev 81
  else s.setLand g { e with due := true }

/-- Triggers that were kept are tried again (R282, R287). -/
def State.tallyDue (s : State) : State :=
  s.land.tab.foldl (fun s p => if p.2.due && !p.2.again && p.2.add.isNone then s.tallyAdd p.1 else s) s

/-- A landing completed with RCODE OK: U rises, the flush timer starts when U left 0, and an add is sent when U has reached the
batch or the group's final write is held here (R281, R282). -/
def State.landed (s : State) (r : Req) : State :=
  if r.opc = 6 && r.ext && r.land && !r.lfin then
    let g := r.lgrp.toNat
    let e := s.landAt g
    let s := (s.setLand g { e with u := e.u + 1, flush := e.flush || e.u = 0 }).ev 80
    if ((e.u + 1).toNat ≥ 2 ^ (fld s.land.landcfg 0 4).toNat || e.held.isSome) && !e.again then s.tallyAdd g else s
  else s

/-- A held final write that has been released (R284 step 5). -/
def State.released (s : State) (r : Req) : Option Held :=
  let e := s.landAt r.lgrp.toNat
  if r.final && e.tally = .release then e.held.filter fun x => x.r = r else none

/-- The landing entry of a released final write is freed as its completion is sent (R284 step 6). -/
def State.writeDone (s : State) (r : Req) : State :=
  if (s.released r).isSome then
    let e := s.landAt r.lgrp.toNat
    s.setLand r.lgrp.toNat { e with held := none, tally := .idle }
  else s

/-- The events of an answered request: 12 to 15 for completion codes (R451). -/
def State.codeEvent (s : State) (rcode : BitVec 4) : State :=
  match rcode.toNat with
  | 0 => s
  | 1 => s.ev 13
  | 2 => s.ev 12
  | 3 => s.ev 14
  | n => s.evq 15 n

/-- Whether the completion gives a latency sample (R382): a line request with RCODE OK, except a final write. -/
def Comp.sampled (c : Comp) : Bool := c.r.opc.toNat ≤ 9 && c.rcode = 0 && !(c.r.ext && c.r.land && c.r.lfin)

/-- Whether the completion counts a step-marker write (R418). -/
def Comp.stepped (c : Comp) : Bool :=
  c.r.stepm && c.rcode = 0 && (c.r.opc = 4 || c.r.opc = 6 || c.r.opc = 7)

/-- A completion enters the response path and leaves on the port of arrival (R20, R52, R53, R236); a landing is counted, and the
entry of a released final write is freed (R281, R284). The sample of a request answered with a line is taken as the later of its RSP
flit and its last DAT flit leaves (R382). -/
def State.complete (s : State) (c : Comp) : State :=
  let n := c.r.name
  let s := (if c.rcode = 0 then s.landed c.r else s).writeDone c.r
  let data := if c.rcode = 0 then c.data else none
  let s := s.codeEvent c.rcode
  let s := if c.rtype = 2 then s.ev 69 else s
  let s := if c.stepped then { s with chk.step := s.chk.step + 1 } else s
  let s := s.send { port := portOf c.r.src, cls := c.r.cls, vc := 2, link := none, line := none, own := true, sad := false, pay := []
                    sample := c.sampled
                    flits := [rspFlit n.sty n.src n c.rtype.toNat c.rcode.toNat c.pois c.grant.toNat
                      (if data.isSome then 2 else 0) c.scopew 0 c.rval] }
  match data with
  | none => s
  | some (d, cr) =>
    s.send { port := portOf c.r.src, cls := c.r.cls, vc := 3, link := none, own := true, sad := false, sample := c.sampled
             line := some (lineOf c.r.space c.r.addr)
             flits := lineFlits n.sty n.src n 0 d c.pois true cr, pay := [] }

/-- A completion without data: COMP. -/
def Comp.plain (r : Req) (rcode : BitVec 4) (pois : Bool) : Comp :=
  { r, rtype := 0, rcode, pois, grant := 0, scopew := false, rval := 0, data := none }

/-- A request answered with a completion code: COMP, GRANT I (R53). -/
def State.answer (s : State) (r : Req) (rcode : BitVec 4) : State := s.complete (.plain r rcode (rcode = 9))

/-! ### Arbiters (R384, R388, R389) -/

/-- The current priority of a class (R384). -/
def State.prio (s : State) (c : BitVec 4) : Nat :=
  ((s.cfg.qos.cls[c.toNat]?).map fun q => q.base.toNat).getD 0 + ((s.qos.avg[c.toNat]?).map fun a => ones a.steps).getD 0

/-- Credit K of a class at a port. -/
def State.credit (s : State) (p : Nat) (c : BitVec 4) : Int := nth (nth s.qos.k p []) c.toNat 0

def clampK (x : Int) : Int := if x > 1024 then 1024 else if x < -1024 then -1024 else x

/-- A port transfers `n` units of class `c`: every class gains its effective reservation for each, and `c` pays 256 for each
(R388). `res` tells a grant under rule 1 (events 136 and 137). -/
def State.pay (s : State) (p : Nat) (c : BitVec 4) (n : Nat) (res : Bool) : State :=
  let row := (List.range 16).map fun i =>
    let g := clampK (nth (nth s.qos.k p []) i 0 + (nth (nth s.qos.eff p []) i 0 * n : Nat))
    if i = c.toNat then clampK (g - (256 * n : Nat)) else g
  { (s.evq (if res then 136 else 137) p) with qos.k := upd s.qos.k p fun _ => row }

/-- Of a list of offers (class, earliest first), the index of the one R388 chooses at port `p`, and whether rule 1 chose it. -/
def State.arbitrate (s : State) (p : Nat) (cs : List (BitVec 4)) : Option (Nat × Bool) :=
  let idx := (List.range cs.length).zip cs
  let best (l : List (Nat × BitVec 4)) : Option Nat :=
    l.foldl (fun a x => match a with
      | none => some x
      | some y => if s.prio x.2 > s.prio y.2 then some x else some y) none |>.map fun x => x.1
  match best (idx.filter fun x => s.credit p x.2 ≥ 256) with
  | some i => some (i, true)
  | none => (best idx).map fun i => (i, false)

/-! ### Injection queues (R394) -/

def Inj.q (j : Inj) : Nat → List OutFlit
  | 0 => j.req
  | 1 => j.snp
  | 2 => j.rsp
  | _ => j.dat

def Inj.set (j : Inj) (vc : Nat) (l : List OutFlit) : Inj :=
  match vc with
  | 0 => { j with req := l }
  | 1 => { j with snp := l }
  | 2 => { j with rsp := l }
  | _ => { j with dat := l }

/-- Room of a channel's queue: REQ 4, SNP 4, RSP 4, DAT 16 (R394). -/
def injCap (vc : Nat) : Nat := if vc = 3 then 16 else 4

/-- A message fits when its queue has room for its flits, and the DAT queue for the payload that goes with them (R48, R394). -/
def Inj.fits (j : Inj) (m : Msg) : Bool :=
  (j.q m.vc.toNat).length + m.flits.length ≤ injCap m.vc.toNat && j.dat.length + m.pay.length ≤ injCap 3

/-- A message enters its queue whole, at time `now`; the sample belongs to its last flit. -/
def Inj.enter (j : Inj) (now : BitVec 64) (m : Msg) : Inj :=
  let n := m.flits.length
  let j := j.set m.vc.toNat (j.q m.vc.toNat ++ ((List.range n).zip m.flits).map fun x =>
    { f := x.2, cls := m.cls, sample := m.sample && x.1 + 1 == n, own := m.own, bad := 0, since := now })
  { j with dat := j.dat ++ m.pay.map fun f => { f, cls := m.cls, sample := false, own := m.own, bad := 0, since := now } }

def State.link (s : State) : Dir → Link
  | .east => s.port.east
  | .west => s.port.west

def State.setLink (s : State) (d : Dir) (l : Link) : State :=
  match d with
  | .east => { s with port.east := l }
  | .west => { s with port.west := l }

def State.near (s : State) : Near → NPort
  | .a => s.port.npa
  | .b => s.port.npb

def State.setNear (s : State) (n : Near) (p : NPort) : State :=
  match n with
  | .a => { s with port.npa := p }
  | .b => { s with port.npb := p }

/-- The near port of an arbiter number. -/
def nearOf (p : Nat) : Near := if p = 1 then .a else .b

/-- The injection queues a message would enter. -/
def State.injOf (s : State) (m : Msg) : Inj :=
  if m.port = 0 then (s.link (m.link.getD .east)).inj else (s.near (nearOf m.port.toNat)).inj

/-- Messages ready at port 0 for an out-link, or at a near port: those whose queue has room (R388). -/
def State.readyAt (s : State) (p : Nat) (d : Dir) : List (Nat × Msg) :=
  ((List.range s.port.ready.length).zip s.port.ready).filter fun x =>
    x.2.port.toNat = p && (p != 0 || x.2.link.getD .east = d) && (s.injOf x.2).fits x.2

/-- Room has come about in the queues since `s`: a message that now fits and did not is ready only from now on, after those that were ready
before it (R388). -/
def State.reready (s t : State) : State :=
  let late (m : Msg) : Bool := (t.injOf m).fits m && !(s.injOf m).fits m
  { t with port.ready := t.port.ready.filter (!late ·) ++ t.port.ready.filter late }

/-- A payload flit of a request (R41). -/
def isPayload (f : Flit) : Bool := flitVc f = 3 && 1 ≤ (flitDkind f).toNat && (flitDkind f).toNat ≤ 3

/-- A flit whose line is taken as poisoned: POIS 1 (R42). -/
def withPois (f : Flit) : Flit := f ||| (1#640 <<< 64)

/-- The transfer of a message from the response path into its injection queue fails on the words `w` of its first flit (R401, R402): a flit
whose header fails is removed; a request or its payload is answered ERR_DECODE; line data goes on with POIS 1; a response goes on when its
words 0 to 5 pass; a snoop is dropped (log 113). -/
def State.busCut (s : State) (m : Msg) (w : FlitPar) : State × Msg :=
  let f := m.flits.headD 0
  let n := flitName f
  let err := rspFlit n.sty n.src n 0 3 false 0 0 false 0 0
  if w &&& 3 != 0 then (s, { m with flits := m.flits.tail })
  else if m.vc = 0 || isPayload f then
    (if m.own then { s with port.rx.rsp := s.port.rx.rsp ++ [⟨err, false⟩] } else (s.relayRing m.cls none [err]).ev 14
      , { m with flits := [], pay := [] })
  else match m.vc.toNat with
    | 3 => (s, { m with flits := m.flits.map withPois })
    | 2 => (s, if w &&& 0x3F != 0 then { m with flits := m.flits.tail } else m)
    | _ => (s, { m with flits := [] })

/-- A chosen message crosses from the response path to its injection queue (R401). -/
def State.busOut (s : State) (m : Msg) : State × Msg :=
  let (s, w) := s.busMeet .response (fun w => if w &&& 3 = 0 then m.line else none) m.cls.toNat
    (if m.vc.toNat < 2 then 0 else (flitDst (m.flits.headD 0)).toNat)
  if w = 0 then (s, m) else s.busCut m w

/-- The arbiter of port 0, 1 or 2 moves the chosen message into its queue and updates the credits (R388, R394); a flit of the saddle
receive buffer leaves it, and its credit is owed to the partner (R107). -/
def State.grantMsg (s : State) (p : Nat) (d : Dir) : State :=
  let rs := s.readyAt p d
  match s.arbitrate p (rs.map fun x => x.2.cls) with
  | none => s
  | some (i, res) =>
    match rs[i]? with
    | none => s
    | some (at_, m) =>
      let s := { (s.pay p m.cls (m.flits.length + m.pay.length) res) with port.ready := s.port.ready.eraseIdx at_ }
      let (s, m) := s.busOut m
      let s := if m.sad then { s with lnk.owed := upd s.lnk.owed m.vc.toNat (· + 1) } else s
      if p = 0 then
        let l := s.link d
        s.setLink d { l with inj := l.inj.enter s.ring.powcyc m }
      else
        let n := s.near (nearOf p)
        s.setNear (nearOf p) { n with inj := n.inj.enter s.ring.powcyc m }

/-! ### Turns and transmission (R61, R479) -/

/-- A latency sample of class `c` (R382, R383). -/
def State.sampleLat (s : State) (c : BitVec 4) (lat : BitVec 16) : State :=
  { (s.evq 132 c.toNat) with
    qos.avg := upd s.qos.avg c.toNat fun a => { a with sum := a.sum + lat.toNat, cnt := a.cnt + 1 } }

/-- The flits of a channel that may leave now: payload waits for its own REQ flit to leave first (R48). -/
def Inj.free (j : Inj) (vc : Nat) : List OutFlit :=
  if vc = 3 then j.dat.takeWhile fun d => !(isPayload d.f && j.req.any fun r => flitName r.f = flitName d.f) else j.q vc

/-- Flits a turn may still send: one, or for DAT what is left of four (R61, R479). -/
def Inj.most (j : Inj) (vc : Nat) : Nat := if vc = 3 then 4 - j.run else 1

/-- The channel whose turn it is: round-robin from `turn` among the channels for which `can` holds (R61). -/
def turnOf (turn : Nat) (can : Nat → Bool) : Option Nat := ((List.range 4).map fun i => (turn + i) % 4).find? can

/-- At most `k` flits of the turn of a channel, and the queues after it: a DAT turn goes on until it has sent four flits or none
may leave (R61, R479). -/
def Inj.takeTurn (j : Inj) (vc k : Nat) : Inj × List OutFlit :=
  let fs := (j.free vc).take k
  let j' := j.set vc ((j.q vc).drop fs.length)
  if vc = 3 && j.run + fs.length < 4 && !(j'.free 3).isEmpty then ({ j' with turn := 3, run := j.run + fs.length }, fs)
  else ({ j' with turn := (vc + 1) % 4, run := 0 }, fs)

/-- A flit of the same final response waits still, so that the sample is not due yet (R382). -/
def State.owesFlit (s : State) (j : Inj) (n : TxName) : Bool :=
  (s.port.ready.any fun m => m.sample && m.flits.any fun f => flitName f = n) ||
    (List.range 4).any fun vc => (j.q vc).any fun f => f.sample && flitName f.f = n

/-- Flits that leave out of queues, of which `j` is left, end final responses: the kth of them gives the kth sample (R382). -/
def State.samples (s : State) (j : Inj) (fs : List OutFlit) (lats : List (BitVec 16)) : State :=
  let ends := fs.filter fun f => f.sample && !s.owesFlit j (flitName f.f)
  (ends.zipIdx).foldl (fun s x => s.sampleLat x.1.cls (lats.getD x.2 0)) s

/-- Flits placed on a ring out-link: energy and event 3 (R446). -/
def State.ringOut (s : State) (fs : List OutFlit) : State :=
  (fs.foldl (fun s f => s.charge 7 f.cls 1) s).evk 3 0 fs.length

/-- Flits waiting for an out-link. -/
def Inj.waiting (j : Inj) : Bool := !(j.req.isEmpty && j.snp.isEmpty && j.rsp.isEmpty && j.dat.isEmpty)

/-- The flits waiting for an out-link, of every channel. -/
def Inj.all (j : Inj) : List OutFlit := j.req ++ j.snp ++ j.rsp ++ j.dat

/-- When the flit that has waited longest entered its queue. -/
def Inj.since (j : Inj) : BitVec 64 :=
  j.all.foldl (fun a f => if f.since.toNat < a.toNat then f.since else a) (BitVec.allOnes 64)

/-- A flit waits that had entered its queue by `at_` (R60). -/
def Inj.waitsSince (j : Inj) (at_ : BitVec 64) : Bool := j.all.any fun f => f.since.toNat ≤ at_.toNat

/-- The injection arbiter of out-link `d` injects at most `most` flits of the turn under way (R60, R61). The next through flit is held back
no longer once every flit that had waited 32 cycles has left. -/
def State.injectTurn (s : State) (d : Dir) (lat : List (BitVec 16)) (most : Nat) : State :=
  let l := s.link d
  match turnOf l.inj.turn fun vc => !(l.inj.free vc).isEmpty with
  | none => s
  | some vc =>
    let (j, fs) := l.inj.takeTurn vc (Nat.min most (l.inj.most vc))
    s.reready (((s.setLink d { l with inj := j, out := fs.map fun x => x.f, par := fs.map fun x => flitPar x.f
                                      arm := l.arm && j.waitsSince l.armAt }).ringOut fs).samples j fs lat)

/-- INSERTION_TIMEOUT (R60): a flit has waited 32 cycles for the out-link, the one that entered its queue first, and the insertion buffer is
free, so the next through flit goes into it. -/
def execInsertionTimeout (d : Dir) (s : State) : Host.Outcome State Fault Refusal :=
  let l := s.link d
  s.when (s.ctl.st != .off && l.ins.isNone && !l.arm && l.inj.waiting) (s.setLink d { l with arm := true, armAt := l.inj.since })

/-- RING_INJECT (R60, R61): an empty slot on out-link `d`; `lat` are the samples of the requests whose final
responses end here (R382). -/
def execRingInject (d : Dir) (lat : List (BitVec 16)) (s : State) : Host.Outcome State Fault Refusal :=
  let l := s.link d
  match l.ins with
  | some f =>
    s.when (s.ctl.st != .off) ((s.setLink d { l with ins := none, out := [f], par := [l.insP] }).charge 7 s.iclass 1)
  | none => s.when (s.ctl.st != .off && l.inj.waiting) (s.injectTurn d lat 4)

/-- The dead table names this near port (R257): what would be sent on it is discarded, and what it brings is ignored. -/
def State.nearDead (s : State) (n : Near) : Bool :=
  s.home.dead.any fun d => d.valid && d.np = (match n with | .a => 1 | .b => 2)

/-- The credits of a near port's channels (R63). -/
def addAt (l : List Nat) (i k : Nat) : List Nat := upd l i (· + k)

/-- One turn of a near port's transmit side: at most `most` flits, held back by the cluster's credits (R479). -/
def State.nearTurn (s : State) (n : Near) (lat : List (BitVec 16)) : State :=
  let p := s.near n
  if s.nearDead n then s.setNear n { p with inj := { Inj.reset with turn := p.inj.turn }, out := [], par := [] }
  else match turnOf p.inj.turn fun vc => !(p.inj.free vc).isEmpty && nth p.held vc 0 != 0 with
  | none => s
  | some vc =>
    let (j, fs) := p.inj.takeTurn vc (Nat.min (p.inj.most vc) (nth p.held vc 0))
    let j := { j with run := 0, turn := (vc + 1) % 4 }
    let t := s.setNear n { p with inj := j, out := fs.map fun x => x.f, par := fs.map fun x => flitPar x.f, held := upd p.held vc (· - fs.length) }
    let t := fs.foldl (fun s f => s.charge 9 f.cls 1) t
    s.reready ((t.evk (match n with | .a => 7 | .b => 9) 0 fs.length).samples j fs lat)

/-- NEAR_PORT_TRANSMIT (R479): one turn. -/
def execNearPortTransmit (n : Near) (lat : List (BitVec 16)) (s : State) : Host.Outcome State Fault Refusal :=
  let p := s.near n
  s.when (s.coreUp && ((s.nearDead n && p.inj.waiting) || (turnOf p.inj.turn fun vc => !(p.inj.free vc).isEmpty && nth p.held vc 0 != 0).isSome))
    (s.nearTurn n lat)

/-- The credits a word returns for a channel: 0 to 2 (R62). -/
def crdCount (crd : Byte) (vc : Nat) : Nat :=
  let k := (fld crd (2 * vc) 2).toNat
  if k = 3 then 0 else k

/-- NEAR_PORT_CREDIT (R63): the cluster returns credits, 2 bits per channel; 0b11 is no count the manual gives and returns
none. -/
def execNearPortCredit (n : Near) (crd : Byte) (s : State) : Host.Outcome State Fault Refusal :=
  let p := s.near n
  s.when (s.coreUp && !s.nearDead n) (s.setNear n { p with held := (List.range 4).map fun vc => nth p.held vc 0 + crdCount crd vc })

end Sys2Proof.Machine
end

