-- ==== Sys2Proof/Machine/LineBuf.lean ====
section
/-! DEFINITION. The knead line buffer: allocation, loading, write-back and its uncorrectable words (11 R322 to R326, R475;
14 R413). -/
namespace Sys2Proof.Machine

/-- Index and entry of the line buffer that holds a line. -/
def State.lbFind (s : State) (l : LineId) : Option (Nat × Lb) :=
  s.knd.lb.find? fun e => e.2.frame.isNone && e.2.line = l

/-- The line's current value is in the line buffer and its slot copy is stale (R323). -/
def State.knOf (s : State) (l : LineId) : Bool := ((s.lbFind l).map fun e => e.2.kn).getD false

/-- Index and entry that holds frame `k` of the frame set of a target line. -/
def State.lbFrame (s : State) (l : LineId) (k : Nat) : Option (Nat × Lb) :=
  s.knd.lb.find? fun e => e.2.frame = some k && e.2.line = l

def State.lbPut (s : State) (i : Nat) (e : Lb) : State := { s with knd.lb := tabPut s.knd.lb i e }
def State.lbDel (s : State) (i : Nat) : State := { s with knd.lb := tabDel s.knd.lb i }

/-- Sets a bit of KND_RES (R353). -/
def State.kndRes (s : State) (i : Nat) : State := { s with knd.res := setBit s.knd.res i }

/-- The metadata KN bit of the slot an entry came from. -/
def State.slotKn (s : State) (e : Lb) (b : Bool) : State := s.modMeta e.key e.slot fun m => { m with kn := b }

/-- The entry after a write-back that leaves its line resident: clean, at the line's present slot (R475). -/
def State.lbClean (s : State) (i : Nat) (e : Lb) : State :=
  match s.find e.line with
  | none => s.lbDel i
  | some (k, j) => s.lbPut i { e with kn := false, vic := none, key := k, slot := j, mt := { e.mt with kn := false } }

/-- An uncorrectable data word of a line entry, or an uncorrectable place word (R413). A line without a slot is zeros with poison in
its entry. -/
def State.lbUe (s : State) (i : Nat) (e : Lb) (place : Bool) (synd : Byte) (cls : BitVec 4) : State :=
  let s := (s.ueCount.chkErr 5).kndRes 2
  let r : Scree := { kind := 0x16, sev := 2, line := some e.line, unit := 4, synd := synd.toNat, detail := i, cls := cls.toNat
                     bank := keyBank e.key, way := keyWay e.key, set := keySet e.key }
  if place then (s.lbDel i).scree { r with sev := 3, line := none }
  else if e.bare then (s.lbPut i { e with data := 0, mt := e.mt.zeroed }).scree r
  else
    let m : Meta := { e.mt.zeroed with d := !e.line.space, kn := false }
    ((s.lbDel i).rewrite e.key e.slot e.line 0 m cls).scree r

/-- A finding of the SECDED check on a line's entry. -/
def State.lbEcc (s : State) (l : LineId) (x : Store) (cls : BitVec 4) : State :=
  match s.lbFind l with
  | none => s
  | some (i, e) =>
    match x with
    | .clean => s
    | .ce => s.ceCount
    | .ueData synd => s.lbUe i e false synd cls
    | .uePlace synd => s.lbUe i e true synd cls

/-- The open frame set of a target line, with its index in the frame table (R338). -/
def State.frameSet (s : State) (l : LineId) : Option (Nat × FrameSet) := s.knd.ft.find? fun e => e.2.tgt = l

/-- A finding of the SECDED check on a frame set's entry of the frame table or on its frames (R413). -/
def State.ftEcc (s : State) (l : LineId) (x : Store) : State :=
  match s.frameSet l with
  | none => s
  | some (i, f) =>
    match x with
    | .clean => s
    | .ce => s.ceCount
    | .ueData synd =>
      (({ s with knd.ft := tabPut s.knd.ft i { f with poison := true } }.ueCount.chkErr 5).kndRes 2).scree
        { kind := 0x17, sev := 2, line := some l, unit := 5, synd := synd.toNat, cls := f.cls.toNat, detail := i }
    | .uePlace synd =>
      let s := f.keys.foldl (fun s k => s.dropFrame k) { s with knd.ft := tabDel s.knd.ft i }
      let s := { s with knd.lb := s.knd.lb.filter fun e => !(e.2.frame.isSome && e.2.line = l) }
      ((s.ueCount.chkErr 5).kndRes 2).scree
        { kind := 0x17, sev := 3, unit := 5, synd := synd.toNat, cls := f.cls.toNat, detail := i }

/-- An access of line-buffer entry `i` meets the word an upset has struck in it: a word of a line entry, or of a frame, whose accumulators
concern their frame set and whose place word loses the entry (R398, R413). -/
def State.lbMeet (s : State) (i : Nat) (cls : BitVec 4) : State :=
  let (s, x) := s.takeLb i
  match tabGet s.knd.lb i with
  | none => s
  | some e =>
    match x with
    | .clean => s
    | .ce => s.ceCount
    | .ueData synd => if e.frame.isSome then s.ftEcc e.line (.ueData synd) else s.lbUe i e false synd cls
    | .uePlace synd => s.lbUe i e true synd cls

/-- The frame set of a target line takes poison: a word of its accumulators is lost (R413). -/
def State.poisonSet (s : State) (l : LineId) : State :=
  match s.frameSet l with
  | none => s
  | some (i, f) => { s with knd.ft := tabPut s.knd.ft i { f with poison := true } }

/-- Writes an entry back (R324): a line by rule 1 or 2 of R188 or in place, a frame to its RFRAME frame. Tells how the
placement ended. With `wait` nothing has been written, and the entry keeps the victim selected (R194). Corrected rewrites pending
in an RFRAME frame's words are cancelled (R208). Words of the entry that upsets have struck are met first (R413); a transfer to the bank that
fails leaves what an uncorrectable data word leaves: a poisoned line, or a poisoned frame set (R207, R401). -/
def State.lbWriteBack (s : State) (i : Nat) (cls : BitVec 4) : State × PlaceRes :=
  let s := s.lbMeet i cls
  match tabGet s.knd.lb i with
  | none => (s, .done none)
  | some e =>
    if !e.kn then (s, .done none)
    else
    let (s, w) := s.busMeet .knead (fun _ => some e.line) cls.toNat 0
    match e.frame with
      | some _ =>
        match s.frame e.key with
        | some f =>
          let s := if w = 0 then s else s.poisonSet e.line
          let t := ((s.setFrame e.key { f with data := e.data }).xfer e.key 2 cls .raw).ev 108
          ({ t with arr.rewrite := t.arr.rewrite.filter fun q => q.1 != e.key
                    arr.struck := t.arr.struck.filter fun q => !(q.1 == e.key && !tagWord q.2.2) }.lbPut i { e with kn := false }, .done none)
        | none => (s.lbDel i, .done none)
      | none =>
        let e := if w = 0 then e else { e with data := 0, mt := e.mt.zeroed }
        let r := s.place { l := e.line, bank := s.bankOf e.line, data := e.data, mt := { e.mt with kn := false }, cls
                           why := .other, vic := e.vic }
        match r.2 with
        | .done t => ((r.1.ev 108).lbClean i e, .done t)
        | .mem t => ((r.1.ev 108).lbDel i, .mem t)
        | .wait v => (r.1.lbPut i { e with vic := v }, .wait v)
        | .refuse c => (r.1, .refuse c)

/-- Entries on which no operation is ordered and whose write-back is not under way (R325). -/
def State.lbIdle (s : State) : List (Nat × Lb) :=
  s.knd.lb.filter fun e => !e.2.sel && e.2.vic.isNone && !s.home.ht.any fun p => p.2.line = e.2.line && p.2.st = .knead

/-- A selected entry is written back for a request of class `cls` (R379) and freed for the new line or frame; while its write-back waits it stays selected. -/
def State.lbReplace (s : State) (i : Nat) (cls : BitVec 4) : State × Option Nat :=
  let r := s.lbWriteBack i cls
  match r.2 with
  | .wait _ =>
    (match tabGet r.1.knd.lb i with
      | some e => r.1.lbPut i { e with sel := true }
      | none => r.1, none)
  | _ => ((r.1.ev 107).lbDel i, some i)

/-- An idle entry, chosen by the line buffer's LFSR, is freed; `none` when there is none, or its write-back waits. An entry that
was selected before and whose write-back waited is taken first, without another step of the LFSR (DESIGN CHOICE: log 83). -/
def State.lbVictim (s : State) (cls : BitVec 4) : State × Option Nat :=
  match s.knd.lb.find? fun e => e.2.sel with
  | some (i, _) => s.lbReplace i cls
  | none =>
    let idle := s.lbIdle
    let x := lfsrStep s.knd.lbLfsr
    match idle[x.toNat * idle.length / 65536]? with
    | none => (s, none)
    | some (i, _) => { s with knd.lbLfsr := x }.lbReplace i cls

/-- A line-buffer entry for a new line or frame: a free one, or that of a victim (R325). `none` when the operation waits. -/
def State.lbTake (s : State) (cls : BitVec 4) : State × Option Nat :=
  match tabFree s.knd.lb 48 with
  | some i => (s, some i)
  | none => s.lbVictim cls

/-- Frees entries of the line buffer until `n` are free, in at most `k` selections; tells whether they are. -/
def State.lbSpare (s : State) (n : Nat) (cls : BitVec 4) : Nat → State × Bool
  | 0 => (s, decide (s.knd.lb.length + n ≤ 48))
  | k + 1 =>
    if s.knd.lb.length + n ≤ 48 then (s, true)
    else match s.lbVictim cls with
      | (s, none) => (s, false)
      | (s, some _) => s.lbSpare n cls k

/-- Loads a resident line into a line-buffer entry (R323): found there, or allocated and read from its slot. A transfer to the knead unit
that fails gives the line POIS 1 (R401). -/
inductive LbLoad where
  | ready (s : State)
  | wait (s : State)
  /-- The line is no longer resident after the read's checks. -/
  | gone (s : State)

def State.lbLoad (s : State) (l : LineId) (e : Ecc) (cls : BitVec 4) : LbLoad :=
  match s.lbFind l with
  | some _ => .ready (s.ev 105)
  | none =>
    match s.find l with
    | none => .gone s
    | some (k, i) =>
      match s.lbTake cls with
      | (s, none) => .wait s
      | (s, some j) =>
        match s.readOut k i e cls with
        | (s, none) => .gone s
        | (s, some r) =>
          let (s, w) := s.busMeet .knead (fun _ => some l) cls.toNat 0
          let r := if w = 0 then r else { r with mt := { r.mt with psn := true } }
          .ready ((s.lbPut j { line := l, frame := none, key := k, slot := i, data := r.data, mt := r.mt, kn := false
                               bare := false, vic := none, sel := false }).ev 106)

end Sys2Proof.Machine
end

