-- ==== Sys2Proof/Machine/KneadOps.lean ====
section
/-! DEFINITION. What a knead request is: its operation, the checks of R330, and its entry into the line buffer (11 R326 to
R330, R337 to R339, R346). -/
namespace Sys2Proof.Machine

/-- OP of a request (R327). -/
def Req.op (r : Req) : Nat := (fld r.kop 0 5).toNat
def Req.fetch (r : Req) : Bool := bit r.kop 5
def Req.sr (r : Req) : Bool := bit r.kop 6

/-- The line of a request. -/
def Req.line (r : Req) : LineId := lineOf r.space r.addr

/-- The scalar operations, OP 0x00 to 0x0A (R45). -/
def Req.scalar (r : Req) : Bool := r.op ≤ 10

/-- KFMT allowed for an OP (R327). -/
def fmtAllowed (op f : Nat) : Bool :=
  if op ≤ 3 || op = 9 then f = 2 || f = 3 || f = 4
  else if op ≤ 8 || op = 10 then f = 2 || f = 3
  else if 0x10 ≤ op && op ≤ 0x12 then f ≤ 8
  else if op = 0x18 then 4 ≤ f && f ≤ 14
  else if op = 0x19 then true
  else (op = 0x1A || op = 0x1B) && (f ≤ 2 || (4 ≤ f && f ≤ 14))

/-- The OPs of an opcode: 0x08 ATOMIC, 0x09 REDUCE (R327). An OP of the other opcode is answered as a reserved one, ERR_FORMAT: R330 lists
reserved OPs only (DESIGN CHOICE, log 108). -/
def opOf (opc : BitVec 5) (op : Nat) : Bool :=
  if opc = 8 then op ≤ 10 || (0x10 ≤ op && op ≤ 0x12) else 0x18 ≤ op && op ≤ 0x1B

/-- The bit of the KNEAD section a format needs (R331, R352). -/
def fmtGroup (f : Nat) : Nat := if f ≤ 3 then 0 else if f ≤ 6 then 1 else if f ≤ 8 then 2 else 3

/-- Whether SR has effect on an OP (R327). -/
def srOp (op : Nat) : Bool := op = 0 || op = 1 || op = 0x10 || op = 0x18

/-- The lane of a line: that of its bank group (R26). -/
def State.laneOf (s : State) (l : LineId) : Nat := s.bankOf l / 4

/-- Bit `g` of the KNEAD section of a lane (R352). -/
def State.laneHas (s : State) (lane g : Nat) : Bool := bit (nth s.cfg.knd.lanes lane 0) g

/-- N of a descriptor: 8, 16 or 32 (R337). -/
def nselOf (d : Line) : Nat := 8 * 2 ^ (fld d 8 2).toNat

/-- A descriptor's fields are in range: NSEL not 0b11, and every reserved field 0 (R337). -/
def wopenOk (d : Line) : Bool := fld d 8 2 != 3 && fld d 12 4 = 0 && d >>> (40 : Nat) = 0

/-- Records a request that set a bit of KND_ERR or KND_RES in KND_LAST and KND_LASTA (R353). -/
def State.kndLast (s : State) (r : Req) (cause : Nat) : State :=
  { s with knd.last := pack 32 [(0, r.op), (5, r.kfmt.toNat), (9, s.laneOf r.line), (11, cause), (31, 1)], knd.lastA := r.line }

/-- Sets a bit of KND_ERR and records the request. -/
def State.kndErr (s : State) (r : Req) (i cause : Nat) : State :=
  { s with knd.err := setBit s.knd.err i }.kndLast r cause

/-- The checks of R330 from the crust on, in its order, made on the operand line `d`: the completion code, and whether the
cause is a missing frame set. -/
def State.kneadCheck (s : State) (r : Req) (d : Line) : Option (BitVec 4 × Bool) :=
  let op := r.op
  let lane := s.laneOf r.line
  let set := s.frameSet r.line
  if r.crv && crust r.line d != r.crust then some (7, false)
  else if !opOf r.opc op || bit r.kop 7 || !fmtAllowed op r.kfmt.toNat || r.plen.toNat != (if op ≤ 10 then 1 else 2)
      || (r.sr && srOp op && !s.laneHas lane 6) || (op != 0x19 && !s.laneHas lane (fmtGroup r.kfmt.toNat))
      || (0x19 ≤ op && !s.laneHas lane 4) || (op == 0x19 && (!wopenOk d || set.isSome)) then some (10, false)
  else if op == 0x1A || op == 0x1B then
    match set with
    | none => some (10, true)
    | some (_, f) => if f.count = BitVec.allOnes 24 then some (10, false) else none
  else none

/-- The frames a WOPEN takes: the lowest free cairn frames of the target's set (R339). -/
def State.wopenFrames (s : State) (l : LineId) (n : Nat) : List Nat :=
  let b := s.bankOf l
  (((List.range 16).map (frameKey b (setOf l))).filter fun k =>
    s.role (keyWay k) = .cairn && !s.wayOut b (keyWay k) && (s.frame k).isNone).take n

/-- Refusal of a frame set (R339): the KND_ERR bit and cause. -/
def State.wopenRefused (s : State) (r : Req) (d : Line) : Option Nat :=
  let n := nselOf d / 8
  if s.use r.cls + n > s.quota r.cls || (s.wopenFrames r.line n).length < n then some 2
  else if (tabFree s.knd.ft 512).isNone then some 3
  else none

/-- Whether the operation works on the target line itself, so that the line is loaded: every line operation, a close, and a
WOPEN with INIT at 1 (R337, R342). -/
def State.needsLine (s : State) (r : Req) (d : Line) : Bool :=
  match r.op with
  | 0x19 => bit d 11
  | 0x1A => match s.frameSet r.line with
    | some (_, f) => f.expect != 0 && f.count + 1 = f.expect
    | none => false
  | _ => true

/-- A finding on a word of an RFRAME frame: an uncorrectable accumulator word concerns its frame set (R413). -/
def State.rframeEcc (s : State) (l : LineId) (k i : Nat) (e : Ecc) (cls : BitVec 4) : State :=
  match e with
  | .ueData _ synd => s.ftEcc l (.ueData synd)
  | _ => s.arrEcc k i e cls

/-- The words of an RFRAME frame that upsets have struck are met by a read of the frame (R207, R413). -/
def State.rframeMeet (s : State) (l : LineId) (k : Nat) (cls : BitVec 4) : State :=
  (s.arr.struck.filter fun x => x.1 == k).foldl (fun s x => s.rframeEcc l k x.2.1 x.2.2 cls)
    { s with arr.struck := s.arr.struck.filter fun x => x.1 != k }

/-- Loads the frames of a frame set into the line buffer, one entry each (R338); the second part is false while an entry is
missing. Their reads are work of the request's class (R379), and a transfer to the knead unit that fails poisons the set (R401). -/
def State.loadFrames (s : State) (l : LineId) (ks : List Nat) (cls : BitVec 4) : State × Bool :=
  ((List.range ks.length).zip ks).foldl (fun a (k, key) =>
    if !a.2 then a
    else match a.1.lbFrame l k with
    | some _ => (a.1.ev 105, true)
    | none =>
      match a.1.lbTake cls with
      | (s, none) => (s, false)
      | (s, some j) =>
        let s := (s.rframeMeet l key cls).xfer key 1 cls .raw
        let (s, w) := s.busMeet .knead (fun _ => some l) cls.toNat 0
        let s := if w = 0 then s else s.poisonSet l
        let d := ((s.frame key).map fun f => f.data).getD 0
        ((s.lbPut j { line := l, frame := some k, key, slot := 0, data := d, mt := .clear, kn := false, bare := false, vic := none
                      sel := false }).ev 106, true)) (s, true)

end Sys2Proof.Machine
end

