-- ==== Sys2Proof/Machine/Home.lean ====
section
/-! DEFINITION. The home engine: payload held at the slice, snoops, transient entries and how each of them ends (07, 08, 09
R267 to R271 and R291). -/
namespace Sys2Proof.Machine

/-! ### Agents and payload -/

/-- The dead table holds this agent (R257). -/
def State.isDead (s : State) (a : Id12) : Bool := s.home.dead.any fun d => d.valid && d.agent = a

/-- The request comes from an agent in the dead table (R251). -/
def State.deadReq (s : State) (n : TxName) : Bool := !n.sty && s.isDead n.src

def State.tobit (s : State) (i : Nat) : State := { s with home.toerr := setBit s.home.toerr i }

/-- The receive side of a source. -/
def State.rx (s : State) : Src → Rx
  | .ring => s.port.rx
  | .near .a => s.port.npa.rx
  | .near .b => s.port.npb.rx

def State.setRx (s : State) (x : Src) (r : Rx) : State :=
  match x with
  | .ring => { s with port.rx := r }
  | .near .a => { s with port.npa.rx := r }
  | .near .b => { s with port.npb.rx := r }

/-- Credits owed to a cluster for `k` freed entries of channel `vc` (R63, R64); the ring has none. -/
def State.owe (s : State) (x : Src) (vc k : Nat) : State :=
  match x with
  | .ring => s
  | .near n => s.setNear n { s.near n with owed := addAt (s.near n).owed vc k }

/-- The payload flits held for a transaction. -/
def State.payload (s : State) (r : Req) : List PayFlit :=
  (((s.rx r.src).pay.find? fun p => p.name = r.name).map fun p => p.flits).getD []

/-- All payload of a request is held. -/
def State.payReady (s : State) (r : Req) : Bool := (s.payload r).length ≥ r.plen.toNat

/-- The count a list holds for a transaction. -/
def txCount (l : List TxCount) (n : TxName) : Nat := ((l.find? fun c => c.name = n).map fun c => c.n).getD 0

def txSet (l : List TxCount) (n : TxName) (k : Nat) : List TxCount :=
  let r := l.filter fun c => c.name != n
  if k = 0 then r else r ++ [⟨n, k⟩]

/-- Frees a request's payload and its reserved entries. Payload still to come is dropped when it comes: counted as stray
after a timeout (R478), discarded otherwise. -/
def State.freePay (s : State) (r : Req) (late : Bool) : State :=
  let x := s.rx r.src
  let open_ := txCount x.resv r.name
  let mine (q : QFlit) : Bool := flitName q.f = r.name && !s.isLineData q.f
  let held := (s.payload r).length + (x.dat.filter mine).length
  let x := { x with pay := x.pay.filter fun p => p.name != r.name, resv := x.resv.filter fun c => c.name != r.name
                    dat := x.dat.filter fun q => !mine q }
  let x := if late then { x with late := txSet x.late r.name open_ } else { x with drop := txSet x.drop r.name open_ }
  (s.setRx r.src x).owe r.src 3 held

/-- The operand or data line of a payload: the flit with FIDX 0 in the lower half; absent halves are 0 (R48, R328). -/
def payLine (fs : List PayFlit) : Line :=
  fs.foldl (fun (d : Line) (p : PayFlit) => d ||| (p.data.setWidth 1024 <<< (512 * (p.fidx.toNat % 2) : Nat))) 0

/-- The payload is poisoned if any of its flits is (R42). -/
def payPois (fs : List PayFlit) : Bool := fs.any fun p => p.pois

/-- The DKIND an opcode requires of its payload (R44). -/
def dkindOf (opc : BitVec 5) : BitVec 3 := if opc = 4 || opc = 6 then 1 else if opc = 10 then 3 else 2

/-- A payload flit has the wrong DKIND or failed parity: ERR_DECODE (R45, R402, R478). -/
def payBad (r : Req) (fs : List PayFlit) : Bool := fs.any fun p => p.bad || p.dkind != dkindOf r.opc

/-! ### Completions -/

/-- The scope order of R271: a reserved code counts as package. -/
def scopeRank (c : BitVec 3) : Nat := Nat.min c.toNat 4

/-- The record of the last release to a line, in its slot or in the line-buffer entry that holds it (R267). -/
def State.recordOf (s : State) (l : LineId) : Option (BitVec 3) :=
  let m := match s.lbFind l with
    | some (_, e) => if e.kn || e.bare then some e.mt else s.metaOf l
    | none => s.metaOf l
  m.bind fun m => if m.rsv then some m.rscope else none

/-- Whether the request carries an acquire (R268). -/
def Req.acquires (r : Req) : Bool := r.acq && (r.opc.toNat ≤ 2 || r.opc = 8)

/-- Compares an acquire that completes with RCODE OK with the line's record (R271); SCOPEW. -/
def State.acquire (s : State) (r : Req) : State × Bool :=
  if !r.acquires then (s, false)
  else match s.recordOf r.line with
    | none => (s.ev 86, false)
    | some c =>
      if scopeRank r.scope > scopeRank c then
        ({ s with land.scopew := satAdd s.land.scopew 1 }, s.land.strict)
      else (s, false)

/-- Sets or clears the last-use mark of a line, in its slot and in a line-buffer entry that holds it; lines in cairn and buffer ways
have none (R198). -/
def State.markLu (s : State) (l : LineId) (b : Bool) : State :=
  let s := match s.lbFind l with
    | some (j, e) => s.lbPut j { e with mt.lu := b && decide (s.role (keyWay e.key) = Role.cache) }
    | none => s
  match s.find l with
  | some (k, i) => if s.role (keyWay k) = .cache then s.modMeta k i fun m => { m with lu := b } else s
  | none => s

/-- The last-use mark after a request (R198): set by a read with LUSE 1, and cleared by any other request but EVICT_CLEAN, on
which LUSE is ignored. -/
def State.touchLu (s : State) (r : Req) : State := if r.opc = 5 then s else s.markLu r.line (r.luse && r.opc.toNat ≤ 2)

/-- The tags of a list that are still in the write hold. -/
def State.heldTags (s : State) (ts : List Nat) : List Nat := ts.filter fun t => s.mp.hold.any fun w => w.tag = t

/-- Sends a completion, or leaves it with the held write it waits for (R264, R291): the last of the tags, since writes to one
line complete in order (R70). For an entry in HT_KNEAD, which closes before its completion enters the response path (R236). -/
def State.completeAfter (s : State) (c : Comp) (ts : List Nat) : State :=
  match (s.heldTags ts).getLast? with
  | none => s.complete c
  | some t => { s with mp.hold := s.mp.hold.map fun w => if w.tag = t then { w with comps := w.comps ++ [c] } else w }

/-- What the end of a request does at its line: acquire comparison and last-use mark; its completion carries SCOPEW (R198, R271). -/
def State.settled (s : State) (c : Comp) : State × Comp :=
  let (s, w) := if c.rcode = 0 then s.acquire c.r else (s, false)
  (if c.rcode = 0 then s.touchLu c.r else s, { c with scopew := w })

/-- Ends a request with a completion that waits for nothing (R236). -/
def State.finish (s : State) (c : Comp) : State := (s.settled c).1.complete (s.settled c).2

/-- The completion of a request one of whose writes to memory has failed for good carries POIS 1 (R69, R404). -/
def Comp.spoiled (bad : Bool) (c : Comp) : Comp := { c with pois := c.pois || bad }

/-- An entry whose work is done: its completions are sent and it closes, or it stays open with them until the writes `ts` have completed
(R236, R264, R291). -/
def State.closeWith (s : State) (h : Ht) (cs : List Comp) (ts : List Nat) : State × Option Ht :=
  if s.heldTags ts = [] then (cs.foldl (fun s c => s.complete (c.spoiled h.wbad)) s, none)
  else (s, some { h with tw := true, comps := cs, tags := s.heldTags ts, timer := false, expect := false
                         st := if h.st = .binv then .binv else .mem })

/-- Ends a request with an error code; its payload is freed (R53). ERR_CRUST is a crust mismatch of R409, which CHK_ERR.CRUST tells (R433). -/
def State.refuse (s : State) (r : Req) (code : BitVec 4) : State :=
  ((if code = 7 then s.chkErr 4 else s).freePay r false).answer r code

/-! ### Snoop-filter grants (R224, R225) -/

def dieOf (a : Id12) : Nat := (fld a 8 4).toNat
def groupOf (a : Id12) : Nat := (fld a 0 8).toNat % 32

/-- Presence of an agent recorded in an entry (R224). -/
def Sf.present (e : Sf) (home : Nat) (a : Id12) : Sf :=
  { e with pdv := setBit e.pdv (dieOf a), hdv := if dieOf a = home then setBit e.hdv (groupOf a) else e.hdv }

def Sf.owned (e : Sf) (a : Id12) : Sf := { e with ov := true, own := a }

def Sf.fresh (l : LineId) : Sf := { tag := sfTag l, space := l.space, ov := false, own := 0, pdv := 0, hdv := 0 }

/-- The lowest-numbered invalid way of a snoop-filter set. -/
def State.sfFree (s : State) (set : Nat) : Option Nat :=
  ((List.range 16).map (set * 16 + ·)).find? fun k => (tabGet s.home.sf k).isNone

/-- Records a grant; `alone` replaces what the entry held, `own` makes the agent its owner. `none` when the set is full. -/
def State.sfGrant (s : State) (l : LineId) (a : Id12) (alone own : Bool) : Option State :=
  let f (e : Sf) : Sf := let e := (if alone then .fresh l else e).present s.homeDie a
    if own then e.owned a else e
  match s.sfFind l with
  | some (k, e) => some { s with home.sf := tabPut s.home.sf k (f e) }
  | none => (s.sfFree (sfSet l)).map fun k => { s with home.sf := tabPut s.home.sf k (f (.fresh l)) }

/-- OV cleared in a line's entry (R224). -/
def State.sfDisown (s : State) (l : LineId) : State :=
  match s.sfFind l with
  | none => s
  | some (k, e) => s.sfPut k { e with ov := false }

/-- Presence cleared on the swept dies (R224). -/
def State.sfSwept (s : State) (l : LineId) (dies : BitVec 16) : State :=
  match s.sfFind l with
  | none => s
  | some (k, e) =>
    s.sfPut k { e with pdv := e.pdv &&& ~~~dies, hdv := if bit dies s.homeDie then 0 else e.hdv }

/-- A line's entry freed. -/
def State.sfDrop (s : State) (l : LineId) : State :=
  match s.sfFind l with
  | none => s
  | some (k, _) => { s with home.sf := tabDel s.home.sf k }

/-- A finding of the SECDED check on the looked-up entry (R225, R412): an uncorrectable entry is invalidated. -/
def State.sfUe (s : State) (k : Nat) (synd : Byte) (cls : BitVec 4) : State :=
  { (s.ueCount) with home.sf := tabDel s.home.sf k, home.err := setBit s.home.err 3 }.scree
    { kind := 0x15, sev := 3, set := k / 16, way := k % 16, unit := 3, cls := cls.toNat, synd := synd.toNat }

def State.sfEcc (s : State) (l : LineId) (x : Store) (cls : BitVec 4) : State :=
  match s.sfFind l with
  | none => s
  | some (k, _) =>
    match x with
    | .clean => s
    | .ce => s.ceCount
    | .ueData synd | .uePlace synd => s.sfUe k synd cls

/-! ### Snoops (R221, R227, R228) -/

/-- SOP codes (R50). -/
def snpShared : BitVec 2 := 0
def snpUnique : BitVec 2 := 1
def snpInvalidate : BitVec 2 := 2

/-- Class of the work an entry does (R379). -/
def State.htClass (s : State) (h : Ht) : BitVec 4 :=
  match h.why with
  | .req r | .inv r | .scan r | .digest r | .move _ _ r => r.cls
  | .binv _ c => c
  | _ => s.iclass

/-- FWDID, FWDTXN, FWDSTY of a snoop (R228): the requester's when it forwards, or for the SNP_INVALIDATE of a CLEAN_UNIQUE;
else the home slice and the snoop's own TXN. -/
def State.fwdOf (s : State) (idx : Nat) (h : Ht) : Id12 × BitVec 12 × Bool :=
  match h.why with
  | .req r =>
    if h.fwd || (r.opc = 3 && h.sop = snpInvalidate) then (r.name.src, r.name.txn, r.name.sty)
    else (s.ring.tieSlice, BitVec.ofNat 12 idx, true)
  | _ => (s.ring.tieSlice, BitVec.ofNat 12 idx, true)

/-- Sends one copy of the entry's swept snoop to each die of a mask: a broadcast on the home die, a relayed copy elsewhere
(R108, R228). -/
def State.sendSweep (s : State) (idx : Nat) (h : Ht) (dies : BitVec 16) : State :=
  let (fid, ftxn, fsty) := s.fwdOf idx h
  let me := s.ring.tieSlice
  let cls := s.htClass h
  (List.range 16).foldl (fun s d =>
    if !bit dies d then s
    else if d = s.homeDie then
      s.sendRing cls (some .east) [snpFlit me idx h.sop false true false 0 h.line fid ftxn fsty h.fwd]
    else
      (s.sendRing cls none [snpFlit me idx h.sop true false false (BitVec.ofNat 12 (d * 256)) h.line fid ftxn fsty h.fwd]).ev 66) s

/-- Sends the entry's snoop: SNP_SHARED directed to the owner, the others swept (R227). -/
def State.sendSnoop (s : State) (idx : Nat) (h : Ht) : State :=
  let (fid, ftxn, fsty) := s.fwdOf idx h
  if h.sop = snpShared then
    (s.sendRing (s.htClass h) none
      [snpFlit s.ring.tieSlice idx h.sop false false false (h.own.getD 0) h.line fid ftxn fsty h.fwd]).ev 64
  else (s.sendSweep idx h h.sweep).ev 65

/-- An entry that has reserved its answers sends its snoop and starts the dead-agent timer (R221, R253); otherwise it waits,
already open. -/
def State.trySend (s : State) (idx : Nat) (h : Ht) : State × Ht :=
  if s.canReserve idx h then (s.sendSnoop idx h, { h with sw := false, timer := h.expect || s.relayed h != 0 })
  else (s, { h with sw := true })

/-! ### Transient entries -/

def Ht.blank (l : LineId) (w : Why) (st : HtSt) : Ht :=
  { line := l, st, why := w, sop := 0, fwd := false, own := none, expect := false, ans := none, cross := false, sweep := 0
    swept := 0, data := none, vic := none, have_ := none, tags := [], tw := false, comps := [], wbad := false, lbw := false, pw := false, lk := false, sfw := false
    mw := false, sw := false, bw := false, reread := false, timer := false, fail := false, passed := false, rclm := false }

/-- The entry with a snoop of type `sop` to be sent for its line: the owner of R238 is OWN when it is not the requester, and
only then is an answer expected (R230); swept snoops go to the present dies. -/
def State.snooping (s : State) (h : Ht) (sop : BitVec 2) (fwd : Bool) (by_ : Option Id12) : Ht :=
  let own := (s.ownerOf h.line).filter fun a => by_ != some a
  let pdv := ((s.sfFind h.line).map fun e => e.2.pdv).getD 0
  let st := match h.st with
    | .binv => HtSt.binv
    | .reclaim => .reclaim
    | _ => if sop = snpShared then .snpS else .snpU
  { h with st, sop, fwd, own := s.ownerOf h.line, expect := own.isSome && st != .reclaim
           sweep := if sop = snpShared then 0 else pdv, swept := 0, ans := none, cross := false, sw := true }

/-- The requester of a request, when it is an agent. -/
def Req.agent (r : Req) : Option Id12 := if r.name.sty then none else some r.name.src

/-- An answer or a sweep is still expected. -/
def Ht.pending (h : Ht) : Bool := h.sweep != 0 || (h.expect && h.ans.isNone)

/-- The answers that report data forwarded to the requester (R233). -/
def forwarded (a : Option (BitVec 5)) : Bool := a = some 0x0A || a = some 0x0B || a = some 0x0C || a = some 0x0D

/-- Poison of a line by timeout or reclaim: counted, flagged, and a notice sent (R254, R256, R416). -/
def State.poisoned (s : State) (l : LineId) (kind detail : Nat) (cls : BitVec 4) : State :=
  ({ s with home.poiscnt := satAdd s.home.poiscnt 1 }.tobit 2).scree { kind, sev := 2, line := some l, unit := 9, cls := cls.toNat, agent := detail % 4096, detail }

/-- Owner data that came with CRV 1 and a wrong crust is taken as zeros with PSN 1 (R409). -/
def State.ownerData (s : State) (l : LineId) (d : Line) (pois crv : Bool) (c : Word) (cls : BitVec 4) (by_ : Option Id12) :
    State × (Line × Bool) :=
  let good := crust l d
  if crv && c != good then
    ((s.chkErr 4).scree { kind := 0x19, sev := 2, line := some l, unit := 9, cls := cls.toNat, agent := (by_.getD 0).toNat, detail := c.toNat + good.toNat * 2 ^ 32 }, (0, true))
  else (s, (d, pois))

/-- A waiting eviction from OWN that an entry may take as the owner's answer (R247). -/
def State.evictionFor (s : State) (h : Ht) : Option Req :=
  s.home.q.find? fun r => r.line = h.line && r.agent.isSome && r.agent = h.own && !s.deadReq r.name &&
    (r.opc = 5 || (r.opc = 4 && s.payReady r && !payBad r (s.payload r)))

/-- An eviction from OWN waits for the line of an entry, whether or not its payload is all here (R248). -/
def State.evictionWaits (s : State) (h : Ht) : Bool :=
  s.home.q.any fun r => r.line = h.line && r.agent.isSome && r.agent = h.own && !s.deadReq r.name && (r.opc = 4 || r.opc = 5)

/-- Takes a waiting eviction as the owner's answer (R247): after SNP_RSP_I to a SNP_SHARED, or once the sweeps of a swept
snoop are complete. -/
def State.crossing (s : State) (h : Ht) : State × Ht :=
  if (h.st = .snpS && h.cross) || ((h.st = .snpU || h.st = .binv) && h.expect && h.ans.isNone && h.sweep = 0 && !h.sw) then
    match s.evictionFor h with
    | none => (s, h)
    | some r =>
      let s := s.sfDisown h.line |>.ev 73
      if r.opc = 4 then
        let fs := s.payload r
        let (s, d) := s.ownerData h.line (payLine fs) (payPois fs) r.crv r.crust (s.htClass h) h.own
        (s, { h with ans := some 0x0F, cross := false, data := some d })
      else (s, { h with ans := some 0x08, cross := false })
  else (s, h)

/-- Evictions and returned data are taken without allocation (R143, R226). -/
def State.drained (s : State) : Bool :=
  s.ctl.st = .draining || s.ctl.st = .drained || (s.ctl.st = .loading && s.ctl.lorig = .drained)

/-- Line data in a drained slice (R143): a memory-space line goes to memory through a write tag, and a resident copy of it,
which is stale now, leaves the array; a buffer-space line is discarded and counted. `none` while no write tag is free. -/
def State.through143 (s : State) (l : LineId) (d : Line) (p : Bool) (c : Word) (cls : BitVec 4) : Option (State × List Nat) :=
  if l.space then some ({ s with ctl.drnBuf := satAdd s.ctl.drnBuf 1 }, [])
  else if s.freeTags = [] then none
  else
    let s := match s.find l with
      | some (k, i) => s.clearSlot k i
      | none => s
    let (s, t) := s.hold l d p c cls .request
    some (s, [t])

/-- The entry waits for a write of its line to memory also where the line was not allocated: a write-type request, whose completion follows it
(R264), and a back-invalidation. -/
def Ht.awaitsWrite (h : Ht) : Bool :=
  match h.why with
  | .req r => r.opc = 4 || r.opc = 6 || r.opc = 7 || r.opc = 8 || r.opc = 9
  | .binv _ _ => true
  | _ => false

/-- Places data of an owner, or the zeros of a timeout, at home (R226). The entry keeps the data to answer with when no frame
holds it, and waits when the placement does. -/
def State.placeOwner (s : State) (h : Ht) : State × Ht × Bool :=
  match h.data with
  | none => (s, h, true)
  | some (d, p) =>
    if s.drained then
      match s.through143 h.line d p (crust h.line d) (s.htClass h) with
      | none => (s, { h with pw := true }, false)
      | some (s, ts) => (s, { h with data := none, have_ := some (d, p, crust h.line d), tags := h.tags ++ ts }, true)
    else
    let lu := ((s.metaOf h.line).map fun m => m.lu).getD false
    let r := s.place { l := h.line, bank := s.bankOf h.line, data := d, cls := s.htClass h, vic := h.vic
                       why := if h.why = .epoch then .walk else .request, mt := { Meta.clear with d := !h.line.space, psn := p, lu } }
    match r.2 with
    | .done t => (r.1, { h with data := none, vic := none, tags := h.tags ++ t.toList }, true)
    | .mem t => (r.1, { h with data := none, vic := none, have_ := some (d, p, crust h.line d)
                               tags := h.tags ++ if h.awaitsWrite then t.toList else [] }, true)
    | .wait v => (r.1, { h with vic := v, pw := true }, false)
    | .refuse _ => (r.1, { h with data := none, vic := none }, true)

/-- The miss register an entry has opened. -/
def State.missOf (s : State) (idx : Nat) : Option (Nat × Miss) := s.mp.miss.find? fun m => m.2.ent = idx

def State.freeMiss (s : State) (idx : Nat) : State := { s with mp.miss := s.mp.miss.filter fun m => m.2.ent != idx }

/-- The registers of an entry whose fill has been placed are in REPLY (R202). -/
def State.replying (s : State) (idx : Nat) : State :=
  { s with mp.miss := s.mp.miss.map fun m => if m.2.ent = idx then (m.1, { m.2 with st := .reply }) else m }

/-- Opens a miss register of the line's bank for an entry, or has the entry wait for one (R200, R204). It takes the lowest-numbered
free one (DESIGN CHOICE: log 76). -/
def State.openMiss (s : State) (idx : Nat) (h : Ht) (cls : BitVec 4) (merge : Bool) : State × Ht :=
  let b := s.bankOf h.line
  match ((List.range 16).map (16 * b + ·)).find? fun t => (tabGet s.mp.miss t).isNone with
  | none => (if h.mw then s else s.ev 44, { h with st := .mem, mw := true })
  | some t =>
    ({ s with mp.miss := tabPut s.mp.miss t { line := h.line, st := .alloc, ent := idx, waiters := [], reissue := 0, cls, merge
                                              ord := s.mp.ord }
              mp.ord := s.mp.ord + 1 }, { h with st := .mem, mw := false })

/-- A read completed because the memory port is down (R127): RCODE OK, GRANT I, POIS 1 and two flits of zeros. -/
def State.downRead (s : State) (r : Req) : State :=
  (s.finish { r, rtype := 1, rcode := 0, pois := true, grant := 0, scopew := false, rval := 0
              data := some (0, crust r.line 0) }).ev 22

/-- What a fetch ended by the memory port going down does to the entry that waits on it (R127, R346). -/
def State.downEntry (s : State) (idx : Nat) (h : Ht) : State :=
  let ws := ((s.missOf idx).map fun m => m.2.waiters).getD []
  let s := s.freeMiss idx
  match h.why with
  | .req r =>
    if r.opc.toNat ≤ 2 || r.opc = 3 then (r :: ws).foldl (fun s r => s.downRead r) s
    else ((s.freePay r false).finish (.plain r 0 true)).ev 22
  | .digest r =>
    match s.home.dig with
    | some j =>
      if j.r = r then
        { s.ev 22 with home.dig := some { j with pois := true, sum := j.sum + (crustDown h.line 0 ++ crust h.line 0) } }
      else s
    | none => s
  | .scan r => { s.ev 22 with knd.scans := s.knd.scans.map fun j => if j.r = r then { j with lost := j.lost ++ [h.line] } else j }
  | _ => s

/-! ### Back-invalidation (R225) -/

/-- Entries of a kind that are open. -/
def State.openCount (s : State) (p : Ht → Bool) : Nat := (s.home.ht.filter fun e => p e.2).length

/-- Back-invalidations under way that free an entry of a snoop-filter set, and entries but one that wait for such (R225). -/
def State.binvsOf (s : State) (set : Nat) : Nat := s.openCount fun e => match e.why with
  | .binv key _ => key / 16 = set
  | _ => false
def State.sfWaiters (s : State) (set but : Nat) : Nat :=
  (s.home.ht.filter fun e => e.1 != but && e.2.sfw && sfSet e.2.line = set).length

/-- Starts the back-invalidation that frees an entry of the line's set, for a waiting request; nothing when 16 are open, when one is
under way for it, when no entry is eligible or no transient entry is free: it is tried again as entries close. `reserve` is the
index of the waiting request. -/
def State.startBinv (s : State) (l : LineId) (reserve : Nat) (cls : BitVec 4) : State :=
  let keys := ((List.range 16).map (sfSet l * 16 + ·)).filter fun k =>
    match tabGet s.home.sf k with
    | some e => !s.transient (e.line k)
    | none => false
  let tier1 := keys.filter fun k => ((tabGet s.home.sf k).map fun e => !e.ov).getD false
  let tier := if tier1 = [] then keys else tier1
  let free := (List.range 512).find? fun i => i != reserve && (tabGet s.home.ht i).isNone
  if s.openCount (fun h => h.st = .binv) ≥ 16 || s.binvsOf (sfSet l) > s.sfWaiters (sfSet l) reserve then s
  else match tier, free with
    | [], _ => s
    | _, none => s
    | _, some i =>
      let x := lfsrStep s.home.sfLfsr
      let k := nth tier (x.toNat * tier.length / 65536) 0
      match tabGet s.home.sf k with
      | none => s
      | some e =>
        let h := Ht.blank (e.line k) (.binv k cls) .binv
        let s := { s with home.sfLfsr := x }.ev 68
        let h := s.snooping h (if e.ov then snpUnique else snpInvalidate) false none
        let (s, h) := s.trySend i h
        { s with home.ht := tabPut s.home.ht i h }

/-! ### Work of a request once its snoops are answered -/

/-- Whether the home serves a read with its home copy current (R269). -/
def Req.homeCurrent (r : Req) : Bool := r.vol || (r.acq && r.scope.toNat ≥ 3)

/-- A memory-space line held in a cairn way under LX12 mode (R291). -/
def State.shadowed (s : State) (l : LineId) : Bool :=
  s.cfg.compat && !l.space && ((s.find l).map fun p => decide (s.role (keyWay p.1) = .cairn)).getD false

/-- The grants of a read and its waiters (R201, R238): who is to be recorded, and what each is told. -/
def readGrant (r : Req) (alone empty : Bool) (ans : Option (BitVec 5)) : BitVec 3 :=
  if r.opc = 2 then 0
  else if r.opc = 0 then (if alone && empty then 2 else 1)
  else if ans = some 0x0D || ans = some 0x0F then 3 else 2

/-- Answers a read and its waiters with a line: grants recorded, then the completions, once the writes of the entry have completed (R201,
R224, R236, R291). When the
snoop-filter set is full, a back-invalidation is started and the entry waits. -/
def State.replyReads (s : State) (idx : Nat) (h : Ht) (r : Req) (d : Option (Line × (Bool × Word))) : State × Option Ht :=
  let ws := ((s.missOf idx).map fun m => m.2.waiters).getD []
  let swept := s.sfSwept h.line h.swept
  let empty := swept.untracked h.line
  let all := (r :: ws).map fun q => (q, readGrant q (ws = []) empty h.ans)
  let uniq := r.opc = 1 || r.opc = 3
  let rec_ : Option State := all.foldl (fun a p => a.bind fun s =>
    match p.1.agent with
    | some ag => if p.2 = 0 then some s else s.sfGrant h.line ag uniq (p.2 != 1)
    | none => some s) (some swept)
  match rec_ with
  | none => (s.startBinv h.line idx r.cls, some { h with sfw := true, have_ := d.orElse fun _ => h.have_ })
  | some s =>
    let done_ := all.foldl (fun (a : State × List Comp) p =>
      let x := a.1.settled { r := p.1, rtype := if d.isSome then 1 else 2, rcode := 0
                             pois := (d.map fun x => x.2.1).getD false, grant := p.2, scopew := false, rval := 0
                             data := d.map fun x => (x.1, x.2.2) }
      (x.1, a.2 ++ [x.2])) (s.freeMiss idx, [])
    done_.1.closeWith h done_.2 h.tags

/-- A read takes its line at home: from the entry, the array, the zero line of an absent buffer line (R303), or memory. A miss
register opened for the refetch of R291 accepts no secondary (DESIGN CHOICE: log 77). -/
def State.readWork (s : State) (idx : Nat) (h : Ht) (r : Req) (c : Chk) : State × Option Ht :=
  let reread := r.opc != 1 && r.opc != 3 && r.homeCurrent && s.shadowed h.line && h.have_.isNone
  if reread && !h.reread && !s.untracked h.line then
    let (s, h) := s.trySend idx { (s.snooping h snpInvalidate false r.agent) with reread := true }
    (s, some h)
  else if forwarded h.ans then s.replyReads idx h r none
  else match h.have_ with
    | some d => s.replyReads idx h r (some d)
    | none =>
      let miss (s : State) (h : Ht) : State × Option Ht :=
        if h.line.space then (s.ev 103).replyReads idx h r (some (0, false, crust h.line 0))
        else if !s.ring.mpUp then (s.downEntry idx { h with why := .req r }, none)
        else
          let (s, h) := s.openMiss idx h r.cls (r.opc != 1 && r.opc != 3 && !reread)
          (s, some h)
      if reread then miss (s.ev 85) { h with reread := true }
      else match s.find h.line with
        | none => miss s h
        | some (k, i) =>
          match s.readOut k i c.ecc r.cls with
          | (s, none) => miss s h
          | (s, some x) =>
            let (s, bad) := s.busReplay c.bus
            let s := if bad then s.scree (parExhaust (some h.line) r.cls.toNat r.name.src.toNat (busMask c.bus)) else s
            s.replyReads idx h r (some (x.data, x.mt.psn || bad, x.mt.crust))

/-- The metadata of a line written by a request: D 1, LU 0, and the record of a release (R196, R198, R267). -/
def writeMeta (r : Req) (psn : Bool) : Meta :=
  let rel := (r.rel && !r.ext) || (r.land && r.lfin && r.ext)
  { Meta.clear with d := true, psn, rsv := rel
                    rscope := if r.land && r.lfin && r.ext then 4 else if rel then r.scope else 0 }

/-- The entry after a write: freed, or for WRITE_BACK its owner cleared (R238). -/
def State.sfAfterWrite (s : State) (l : LineId) (r : Req) : State := if r.opc = 4 then s.sfDisown l else s.sfDrop l

/-- A move that arrives: a WRITE_UNIQUE of a slice in QUIESCED (R316). -/
def State.isMove (s : State) (r : Req) : Bool := r.name.sty && r.opc = 6 && s.ctl.st = .quiesced

/-- The bank a write of a request is placed in: that of the target map for a move (R316), and for a line whose old bank still
holds it that bank (R314, R318). -/
def State.bankFor (s : State) (r : Req) : Nat :=
  if s.isMove r then (s.homeIn s.targetMap r.line).2
  else match s.cfg.prevMap with
    | some m =>
      let b := (s.homeIn m r.line).2
      if (s.homeIn m r.line).1 = s.ring.tieSlice && (s.findIn b r.line).isSome then b else s.bankOf r.line
    | none => s.bankOf r.line

/-- A move placed is counted (R316, R321). -/
def State.moveIn (s : State) (r : Req) : State :=
  if s.isMove r then { (s.ev 100) with pin.rcvd := s.pin.rcvd + 1 } else s

/-- Places the result of a write and completes it; without allocation the completion waits for the memory write (R264). -/
def State.writeEnd (s : State) (h : Ht) (r : Req) (d : Line) (psn : Bool) : State × Option Ht :=
  let fin (s : State) (t : Option Nat) : State × Option Ht :=
    let x := (((s.freePay r false).sfAfterWrite h.line r).moveIn r).settled (.plain r 0 false)
    x.1.closeWith h [x.2] (h.tags ++ t.toList)
  if s.drained && r.opc = 4 then
    match s.through143 h.line d psn (crust h.line d) r.cls with
    | none => (s, some { h with timer := false, pw := true })
    | some (s, ts) => fin s ts.head?
  else
  let p := s.place { l := h.line, bank := s.bankFor r, data := d, mt := writeMeta r psn, cls := r.cls, why := .request
                     vic := h.vic }
  match p.2 with
  | .done t => fin p.1 t
  | .mem t => fin p.1 t
  | .wait v => (p.1, some { h with vic := v, timer := false, pw := true })
  | .refuse code => (p.1.refuse r code, none)

end Sys2Proof.Machine
end

