-- ==== Sys2Proof/Machine/HomeRun.lean ====
section
/-! DEFINITION. How a transient entry goes on: once its snoops are answered, its data has come, or its timer has expired; and
how entries that close wake those that wait (07 R225 and R236, 08 R247 to R257, 10 R313 and R314, 11 R346). -/
namespace Sys2Proof.Machine

/-! ### Writes -/

/-- The line a partial write merges into, when it can be had at once: owner data or a fill the entry keeps, the array, or the
zeros of an absent buffer line (R196, R303). -/
def State.baseLine (s : State) (h : Ht) (cls : BitVec 4) (c : Chk) : State × Option (Line × Bool) :=
  match h.have_ with
  | some d => (s, some (d.1, d.2.1))
  | none =>
    match s.find h.line with
    | some (k, i) =>
      match s.readOut k i c.ecc cls with
      | (s, some x) => (s, some (x.data, x.mt.psn))
      | (s, none) => (s, if h.line.space then some (0, false) else none)
    | none => (s, if h.line.space then some (0, false) else none)

/-- The payload held for a request becomes zeros with poison. -/
def State.spoil (s : State) (r : Req) : State :=
  let x := s.rx r.src
  s.setRx r.src { x with pay := x.pay.map fun p =>
    if p.name = r.name then { p with flits := p.flits.map fun f => { f with data := 0, pois := true } } else p }

/-- The payload of a write crosses the bus to its bank. Where that fails the line is handled as one with an uncorrectable word: it is
written as zeros with PSN 1, whole and with no crust to check (R207, R401). -/
def State.payBus (s : State) (r : Req) (bus : Nat) : State × Req :=
  let (s, bad) := s.busReplay bus
  if bad then
    ((s.spoil r).scree (parExhaust (some r.line) r.cls.toNat r.name.src.toNat (busMask bus))
      , { r with crv := false, mask := BitVec.allOnes 128 })
  else (s, r)

/-! ### Final writes (R283, R284) -/

/-- Tally reads start once no add is outstanding and none is left to send (R284 steps 1 and 2); a read that cannot be sent now waits
for the poll. -/
def State.tallyStart (s : State) (g : Nat) : State :=
  let s := s.tallyAdd g
  let e := s.landAt g
  if e.add.isSome || e.again || e.due || e.stale then s.setLand g { e with tally := .adding }
  else if !s.tallyRuns || !s.roomFor true then s.setLand g { e with tally := .gap }
  else ((s.setLand g { e with tally := .reading }).tallySend g (0xE40 + g) 0 true).ev 82

/-- A final write that has passed its checks is answered or held (R283). -/
def State.finalIn (s : State) (r : Req) (d : Line) (p : Bool) : State :=
  let g := r.lgrp.toNat
  if !bit s.land.ltLo 0 then (s.landErr g 2).refuse r 8
  else if (s.landAt g).held.isSome then (s.landErr g 1).refuse r 8
  else
    let s := s.freePay r false
    (s.setLand g { s.landAt g with held := some ⟨r, d, p⟩ }).tallyStart g

/-! ### Performing a write -/

/-- A write refused after its ordering: a WRITE_BACK from OWN clears OV all the same (R224). -/
def State.writeRefused (s : State) (h : Ht) (r : Req) (code : BitVec 4) : State :=
  (if r.opc = 4 then s.sfDisown h.line else s).refuse r code

/-- WRITE_BACK, WRITE_UNIQUE and ZERO_LINE once their snoops are answered: payload (HT_WB), fetch for a partial mask, crust
check, placement (R49, R196, R220, R414, R478). A final write that arrives ends here at its checks (R283); a partial one with CRV
is checked against the merged line, whose current value is recalled or fetched for that (log 85). -/
def State.writeWork (s : State) (idx : Nat) (h : Ht) (r : Req) (c : Chk) : State × Option Ht :=
  if r.opc = 7 then s.writeEnd h r 0 false
  else
    let fs := s.payload r
    let kept := (s.released r).map fun x => (x.data, x.pois)
    let arriving := r.final && kept.isNone && !s.isMove r
    if payBad r fs then (s.writeRefused h r 3, none)
    else if kept.isNone && !s.payReady r then (s, some { h with st := .wb, timer := true })
    else if arriving && r.space && (s.windowOf r.line).isNone then (((s.pinErr 3).evq 97 5).refuse r 5, none)
    else
      let (s, r) := if kept.isSome then (s, r) else s.payBus r c.bus
      let h := { h with why := .req r }
      let (d, p) := kept.getD (payLine (s.payload r), payPois (s.payload r))
      if r.opc = 4 || r.mask = BitVec.allOnes 128 || (arriving && !r.crv) then
        if r.crv && crust h.line d != r.crust then (s.writeRefused h r 7, none)
        else if arriving then (s.finalIn r d p, none)
        else s.writeEnd { h with st := .wb } r d p
      else
        match s.baseLine h r.cls c with
        | (s, none) =>
          if !s.ring.mpUp then (s.downEntry idx { h with why := .req r }, none)
          else
            let (s, h) := s.openMiss idx { h with timer := false } r.cls false
            (s, some h)
        | (s, some (b, bp)) =>
          let m := mergeMask b d r.mask
          if r.crv && crust h.line m != r.crust then (s.refuse r 7, none)
          else if arriving then (s.finalIn r d p, none)
          else s.writeEnd { h with st := .wb } r m (bp || p)

/-! ### Knead requests (R239, R326, R346) -/

/-- A knead request with every copy recalled: the line is fetched when absent, loaded where the operation works on it, and
the frames of a wide-accumulate operation are brought into the line buffer; then the entry is in HT_KNEAD. From there on no agent
holds the line (R239), and its frame and its line-buffer entry are no victims (R325, R345). The line-buffer entry, or for WACC and WCLOSE the frame-table entry,
is checked as it is read (R413). -/
def State.kneadEnter (s : State) (idx : Nat) (h : Ht) (r : Req) (c : Chk) : State × Option Ht :=
  let d := payLine (s.payload r)
  let s := if r.op = 0x1A || r.op = 0x1B then s.ftEcc r.line c.lb else s.lbEcc h.line c.lb r.cls
  let hk := { h with st := HtSt.knead, timer := false, lbw := false, swept := 0 }
  let waits := some { hk with lbw := true }
  let enter (s : State) : State := { s.sfDrop h.line with home.ht := tabPut s.home.ht idx hk }
  let frames (s : State) : State × Option Ht :=
    if r.op = 0x1A || r.op = 0x1B then
      match s.frameSet r.line with
      | none => (s, some hk)
      | some (_, f) =>
        match s.loadFrames r.line f.keys r.cls with
        | (s, false) => (s, waits)
        | (s, true) => (s, some hk)
    else (s, some hk)
  let fetch (s : State) : State × Option Ht :=
    if !s.ring.mpUp then (s.downEntry idx { h with why := .req r }, none)
    else
      let (s, h) := s.openMiss idx { h with timer := false, lbw := false } r.cls false
      (s, some h)
  let load (s : State) : State × Option Ht :=
    if !s.needsLine r d then frames (enter s)
    else match (enter s).lbLoad h.line c.ecc r.cls with
      | .ready s => frames s
      | .wait s => (s, waits)
      | .gone s => if h.line.space then (s, waits) else fetch s
  match s.lbFind h.line, h.have_ with
  | some _, _ => load s
  | none, some x =>
    if !s.needsLine r d then frames (enter s)
    else match (enter s).lbTake r.cls with
      | (s, none) => (s, waits)
      | (s, some j) =>
        frames (s.lbPut j { line := h.line, frame := none, key := 0, slot := 0, data := x.1, kn := false, bare := true, vic := none
                            sel := false, mt := { Meta.clear with psn := x.2.1, crust := x.2.2, fit := fitOf x.1 } })
  | none, none =>
    if (s.find h.line).isSome then load s
    else if h.line.space then
      let p := s.place { l := h.line, bank := s.bankOf h.line, data := 0, mt := .clear, cls := r.cls, why := .request }
      match p.2 with
      | .refuse code => (p.1.refuse r code, none)
      | .wait _ => (p.1, some { h with pw := true })
      | _ => load (p.1.ev 103)
    else fetch s

/-! ### Epoch actions (R313, R314) -/

/-- The map before EPOCH, kept until RESUME (R312). -/
def State.oldMap (s : State) : List Word := s.cfg.prevMap.getD s.activeMap

/-- A line's effective bank at this slice before the switch. -/
def State.oldBank (s : State) (l : LineId) : Nat := (s.homeIn s.oldMap l).2

/-- Whether a line was homed here under the previous map. -/
def State.wasHere (s : State) (l : LineId) : Bool := (s.homeIn s.oldMap l).1 = s.ring.tieSlice

/-- A line homed here changes slice, or slice or bank (R312). -/
def State.leaves (s : State) (l : LineId) : Bool := s.wasHere l && !s.homesHere l
def State.changesHome (s : State) (l : LineId) : Bool :=
  s.wasHere l && (!s.homesHere l || s.bankOf l != s.oldBank l)

/-- Class of a line that the move engine sends (R379). -/
def State.moveClass (s : State) (l : LineId) : BitVec 4 := (s.pinClass l).getD s.iclass

/-- A request that stands for a move of the slice itself. -/
def moveReq (s : State) (idx : Nat) (l : LineId) : Req :=
  { name := ⟨true, s.ring.tieSlice, BitVec.ofNat 12 idx⟩, src := .ring, opc := 6, space := l.space, cls := s.moveClass l
    scope := 0, vol := false, rel := false, acq := false, luse := false, stepm := false, ext := false, land := false
    lfin := false, lgrp := 0, plen := 2, crv := true, addr := lineAddr l, crust := 0, esrc := 0, lcnt := 0, kop := 0
    kfmt := 0, len := 0, mask := BitVec.allOnes 128, since := 0, full := false }

/-- The entry becomes a move: it waits for MOVE_SEND (R315). -/
def State.toMove (s : State) (idx : Nat) (h : Ht) (d : Option (Line × Bool)) : Ht :=
  { (Ht.blank h.line (.move 0 true (moveReq s idx h.line)) .move) with data := d }

/-- Writes a line to memory through a write tag on behalf of a walk; waits without a free tag. -/
def State.walkWrite (s : State) (l : LineId) (d : Line) (p : Bool) : Option State :=
  if s.freeTags = [] then none else some (s.hold l d p (crust l d) s.iclass .walk).1

/-- A line is lost in an epoch switch: counted, recorded, flagged, and reported (R314, R317, R321). -/
def State.lineLost (s : State) (l : LineId) (cls : BitVec 4) (code : BitVec 4) : State :=
  ({ s with pin.lostN := satAdd s.pin.lostN 1, pin.lost := some l }.pinErr 7).scree
    { kind := 0x42, sev := 2, line := some l, unit := 14, cls := cls.toNat, detail := code.toNat }

/-- Local move of a pinned line to its new bank (R314): the placement of R301, in which the line's own frame no longer counts,
since it becomes Invalid in the same cycle; while the placement waits the frame stands. A line that R301 refuses is lost. -/
def State.localMove (s : State) (h : Ht) (k i : Nat) : State × Option Ht :=
  let l := h.line
  match s.readOut k i .clean s.iclass with
  | (s, none) => (s, none)
  | (s, some x) =>
    let p := (s.clearSlot k i).place { l, bank := s.bankOf l, data := x.data, mt := { x.mt with kn := false }, cls := s.iclass
                                       why := .walk, vic := h.vic }
    match p.2, s.frame k with
    | .wait v, some f => (p.1.setFrame k f, some { h with vic := v, pw := true })
    | .refuse code, _ => (p.1.lineLost l s.iclass code, none)
    | _, _ => (p.1.ev 98, none)

/-- A resident line that changes home: the local move, the move to another slice, the write to memory, or the drop (R314). -/
def State.epochSlot (s : State) (idx : Nat) (h : Ht) (k i : Nat) : State × Option Ht :=
  let l := h.line
  if s.role (keyWay k) != .cache then
    if s.homesHere l then s.localMove h k i else (s, some (s.toMove idx h none))
  else if !((s.slotAt k i).any fun (x : Slot) => x.mt.d) then (s.clearSlot k i, none)
  else match s.readOut k i .clean s.iclass with
    | (s, none) => (s, none)
    | (s, some x) =>
      match s.walkWrite l x.data x.mt.psn with
      | none => (s, some { h with pw := true })
      | some s => ((s.ev 50).clearSlot k i, none)

/-- The action of R314 on a line that changes home, after any recall, whose data is first placed as R226 decides where the line is
resident; `none` closes the entry. -/
def State.epochAct (s : State) (idx : Nat) (h : Ht) : State × Option Ht :=
  let l := h.line
  let ob := s.oldBank l
  if !s.changesHome l then
    match h.data with
    | none => (s, none)
    | some _ =>
      let (s, h, ok) := s.placeOwner h
      (s, if ok then none else some h)
  else
    match s.findIn ob l, h.data with
    | some (k, i), none => s.epochSlot idx h k i
    | some (k, i), some (d, p) =>
      let lu := ((s.slotAt k i).any fun (x : Slot) => x.mt.lu)
      let r := s.place { l, bank := ob, data := d, mt := { Meta.clear with d := !l.space, psn := p, lu }, cls := s.iclass, why := .walk
                         vic := h.vic }
      (match r.2, r.1.findIn ob l with
        | .wait v, _ => (r.1, some { h with vic := v, pw := true })
        | .done _, some (k, i) => r.1.epochSlot idx { h with data := none, vic := none } k i
        | _, _ => (r.1, none))
    | none, none => (s, none)
    | none, some (d, p) =>
      if l.space || (s.cairnOf l).isSome then (s, some (s.toMove idx { h with data := none } (some (d, p))))
      else match s.walkWrite l d p with
        | none => (s, some { h with pw := true })
        | some s => (s, none)

/-! ### The entry goes on -/

/-- CLEAN_UNIQUE without another owner: granted M, the requester alone present and owner (R238). -/
def State.cleanWork (s : State) (idx : Nat) (h : Ht) (r : Req) : State × Option Ht :=
  let fin (s : State) : State × Option Ht :=
    let x := s.settled { r, rtype := 0, rcode := 0, pois := false, grant := 3, scopew := false, rval := 0, data := none }
    x.1.closeWith h [x.2] h.tags
  match r.agent with
  | none => fin s
  | some a =>
    match s.sfGrant h.line a true true with
    | some s => fin s
    | none => (s.startBinv h.line idx r.cls, some { h with sfw := true })

/-- The work of a request whose snoops are answered, by opcode. -/
def State.work (s : State) (idx : Nat) (h : Ht) (r : Req) (c : Chk) : State × Option Ht :=
  match r.opc.toNat with
  | 0 | 1 | 2 => s.readWork idx h r c
  | 3 => if h.sop = snpUnique then s.readWork idx h r c else s.cleanWork idx h r
  | 8 | 9 => s.kneadEnter idx h r c
  | _ => s.writeWork idx h r c

/-- The job of an INV_RANGE is marked: a line of it timed out. -/
def State.invBad (s : State) (r : Req) : State :=
  { s with home.invs := s.home.invs.map fun j => if j.r = r then { j with bad := true } else j }

/-- Writes to memory of a line's recalled data, which the completion of the range request or the SCAN waits for (R291). -/
def State.jobTags (s : State) (r : Req) (ts : List Nat) : State :=
  { s with home.invs := s.home.invs.map fun j => if j.r = r then { j with tags := j.tags ++ ts } else j
           home.dig := s.home.dig.map fun (j : DigJob) => if j.r = r then { j with tags := j.tags ++ ts } else j
           knd.scans := s.knd.scans.map fun j => if j.r = r then { j with tags := j.tags ++ ts } else j }

/-- An entry whose work is done closes once its writes to memory have completed (R236); a back-invalidation frees its snoop-filter entry
then (R225). -/
def State.closeNow (s : State) (h : Ht) : State × Option Ht :=
  match s.closeWith h h.comps h.tags with
  | (s, some h) => (s, some h)
  | (s, none) =>
    (match h.why with
      | .binv key _ => { s with home.sf := tabDel s.home.sf key }
      | _ => s, none)

/-- Every sweep is complete and the owner's answer has come, or the timer has ended the wait: data is placed, and the entry does
what it was opened for. Presence is cleared at the request's grant, and not where the entry failed (R224, R248); a recall of the
epoch walks frees its snoop-filter entry as a back-invalidation does (R225, R254, R313). -/
def State.answered (s : State) (idx : Nat) (h : Ht) (c : Chk) : State × Option Ht :=
  match h.why with
  | .epoch => (if s.leaves h.line then s.sfDrop h.line else s).epochAct idx { h with swept := 0 }
  | _ =>
    let (s, h) := match h.why with
      | .reclaim a =>
        if h.reread then (s, h)
        else ((s.poisoned h.line 0x41 a.toNat (s.htClass h)).ev 76, { h with data := some (0, true), reread := true })
      | _ => (s, h)
    let (s, h, ok) := s.placeOwner h
    if !ok then (s, some h)
    else match h.why with
      | .req r =>
        if h.fail then (((s.freePay r false).freeMiss idx).answer r 9, none) else s.work idx h r c
      | .binv _ _ => s.closeNow h
      | .reclaim _ => (if h.fail then s.sfDisown h.line else s.sfDrop h.line, none)
      | .inv r => (((if h.fail then (s.sfDisown h.line).invBad r else s.sfDrop h.line).markLu h.line false).jobTags r h.tags, none)
      | .scan r | .digest r => (s.jobTags r h.tags, none)
      | .move _ _ _ | .epoch => (s, none)

/-- The agent on whose behalf an entry was opened, when there is one. -/
def Ht.requester (h : Ht) : Option Id12 :=
  match h.why with
  | .req r | .inv r | .scan r | .digest r => r.agent
  | _ => none

/-- What a timer expiry does to an entry that waits for an owner's answer or a SNP_SWEPT (R254): the wait is over, but for a
sweep of the home die, and for sweeps not asked for yet, where nothing else was missing that ends the entry. When an owner's answer and a SNP_SWEPT are both missing,
COH_TOLAST names the owner with KIND 0 and the die; of several dies it names the lowest (DESIGN CHOICE: log 81). -/
def State.expireWait (s : State) (h : Ht) : State × Ht :=
  let noOwner := h.expect && h.ans.isNone
  let noSweep := !h.sw && s.relayed h != 0
  let die := ((List.range 16).find? fun d => bit (s.relayed h) d).getD 0
  let who := if noOwner then h.own.getD 0 else (h.requester.orElse fun _ => h.own).getD 0
  let last := pack 18 [(0, who.toNat), (12, if noOwner then 0 else 1), (14, if noSweep then die else 0)]
  let s := { (s.tobit 0) with home.tolast := last }
  let s := (if noSweep then s.tobit 1 else s).ev 75
  let lost := (noOwner && h.sop != snpInvalidate) || (noSweep && h.ans = some 0x0D)
  let (s, h) := if lost then (s.poisoned h.line 0x40 last.toNat (s.htClass h), { h with data := some (0, true) }) else (s, h)
  let s := if noOwner then s.sfDisown h.line else s
  let fail := h.fail || noSweep || (noOwner && h.sop != snpInvalidate)
  (s, { h with expect := false, sweep := if fail then 0 else h.sweep, cross := false, timer := false, sw := h.sw && !fail, fail })

/-- Timer expiry in HT_WB: the payload is missing (R254). -/
def State.expirePay (s : State) (r : Req) : State :=
  let s := { ((s.tobit 0).ev 75) with home.tolast := pack 18 [(0, r.name.src.toNat), (12, 2)] }
  (s.freePay r true).answer r 9

/-- An entry whose only missing answer is that of an agent in the dead table completes as on expiry (R257). -/
def State.ownerDead (s : State) (h : Ht) : Bool :=
  h.expect && h.ans.isNone && h.sweep = 0 && (h.own.map fun a => s.isDead a).getD false

/-- A fill has come for an entry in HT_MEM: placed, and the entry goes on with it (R188, R201, R346). The miss register is in FILL
until the placement has written the tags, and then in REPLY until the request is answered (R202). The fill of a line that a scan waits for
is placed as R361 says, which names R301, though the table of R196 lists no allocation for SCAN (DESIGN CHOICE, log 101). -/
def State.fillWork (s : State) (idx : Nat) (h : Ht) (d : Line) (p : Bool) : State × Option Ht :=
  let kept := some (d, p, crust h.line d)
  let place (s : State) (p : Bool) (go : State → Option (Line × (Bool × Word)) → Bool → State × Option Ht) :
      State × Option Ht :=
    let r := s.place { l := h.line, bank := s.bankOf h.line, data := d, mt := { Meta.clear with psn := p }, cls := s.htClass h
                       why := .request, vic := h.vic }
    match r.2 with
    | .wait v => (r.1, some { h with vic := v, pw := true })
    | .mem _ => go (r.1.replying idx) (some (d, p, crust h.line d)) true
    | _ => go (r.1.replying idx) (some (d, p, crust h.line d)) false
  match h.why with
  | .req r =>
    if r.opc.toNat ≤ 3 then
      let p := p || (h.reread && ((s.metaOf h.line).map fun m => m.psn).getD false)
      place s p fun s x _ => s.replyReads idx { h with data := none, have_ := x, vic := none } r x
    else if r.opc = 6 then s.writeWork idx { h with data := none, have_ := kept } r .ok
    else
      place s p fun s x bare => s.kneadEnter idx { h with data := none, vic := none, have_ := if bare then x else none } r .ok
  | .digest _ =>
    (match s.home.dig with
      | some j => { s with
          home.dig := some { j with sum := j.sum + (crustDown h.line d ++ crust h.line d), pois := j.pois || p } }
      | none => s, none)
  | _ => place s p fun s _ _ => (s, none)

/-! ### The bank's order (R32, R385) -/

/-- A request that has waited 2^AGE ACK cycles in its bank's queue; an ACK cycle is half a CCK cycle (R385). -/
def State.aged (s : State) (since : BitVec 64) : Bool := 2 * (s.ring.powcyc - since).toNat ≥ 2 ^ s.cfg.qos.age.toNat

/-- The bank serves the work of class `c` that arrived at `t` before that of class `c'` that arrived at `t'` (R385). -/
def State.beats (s : State) (c : BitVec 4) (t : BitVec 64) (c' : BitVec 4) (t' : BitVec 64) : Bool :=
  if s.aged t' then s.aged t && t.toNat < t'.toNat
  else s.aged t || s.prio c > s.prio c' || (s.prio c = s.prio c' && t.toNat < t'.toNat)

/-- A line is free to be ordered: no open entry, no loaf lock of its bank on its loaf, and for every opcode but ATOMIC and
REDUCE its value in its slot (R27, R190, R346). -/
def State.lineFree (s : State) (r : Req) : Bool :=
  !s.transient r.line && s.unlocked (s.bankOf r.line) (loafOf r.line) &&
    (r.opc = 8 || r.opc = 9 || !s.knOf r.line)

/-- The oldest request that waits for a line (R27). -/
def State.oldest (s : State) (l : LineId) : Option Req := s.home.q.find? fun r => r.line = l

/-- Class and arrival by which the bank accesses of a recall are ranked: those of the request that caused it (R32; log 82). -/
def State.htRank (s : State) (h : Ht) : BitVec 4 × BitVec 64 :=
  match h.why with
  | .req r | .inv r | .scan r | .digest r => (r.cls, r.since)
  | _ => (s.htClass h, s.ring.powcyc)

/-- A queued request that its bank serves before the bank accesses of a recall that has its answers (R32). -/
def State.outranked (s : State) (h : Ht) : Bool :=
  (h.own.isSome || h.swept != 0) && h.why != .epoch && s.home.q.any fun r =>
    s.bankOf r.line = s.bankOf h.line && s.oldest r.line = some r && s.lineFree r && (tabFree s.home.ht 512).isSome &&
      s.beats r.cls r.since (s.htRank h).1 (s.htRank h).2

/-- The entry goes on as far as it can. Work on frames of a loaf whose lock another placement holds waits (R190), and the bank
accesses of a recall wait for what their bank serves first (R32); a placement that waited has had its turn already. -/
def State.run (s : State) (idx : Nat) (h : Ht) (c : Chk) : State × Option Ht :=
  let had := h.pw
  let h := { h with pw := false, lk := false, bw := false }
  let go (s : State) (h : Ht) : State × Option Ht :=
    if !s.lockOpen h.line then (s, some { h with lk := true })
    else if !had && s.outranked h then (s, some { h with bw := true })
    else s.answered idx h c
  if h.tw then s.closeNow h else
  let (s, h) := if h.sw then s.trySend idx h else (s, h)
  if h.sw then (s, some h)
  else if !h.pending && !s.lockOpen h.line then (s, some { h with lk := true })
  else match h.st with
    | .snpS | .snpU | .binv | .reclaim =>
      let (s, h) := s.crossing h
      if s.ownerDead h then
        let (s, h) := s.expireWait h
        go s h
      else if h.pending then (s, some h) else go s h
    | .mem =>
      match h.data, h.have_ with
      | some (d, p), _ => s.fillWork idx h d p
      | none, some _ =>
        match h.why with
        | .req r => s.work idx h r c
        | _ => (s, some h)
      | none, none =>
        match h.mw, h.why with
        | true, .req r => s.work idx h r c
        | true, _ =>
          let (s, h) := s.openMiss idx h (s.htClass h) false
          (s, some h)
        | false, _ => (s, some h)
    | .wb =>
      match h.why with
      | .req r => s.work idx h r c
      | _ => (s, some h)
    | .knead =>
      match h.lbw, h.why with
      | true, .req r => s.kneadEnter idx h r c
      | _, _ => (s, some h)
    | .move => (s, some h)

/-! ### Closing and waking -/

/-- Line data that waits for an entry that has closed is dropped. -/
def State.dropData (s : State) (n : TxName) : State :=
  { s with port.rx.dat := s.port.rx.dat.filter fun q => flitName q.f != n }

/-- An entry is kept, or closed: its miss register is FREE, and the dead table's rows stop waiting for it (R202, R256). -/
def State.keep (s : State) (idx : Nat) (r : Option Ht) : State :=
  match r with
  | some h => { s with home.ht := tabPut s.home.ht idx h }
  | none => { ((s.dropData ⟨true, s.ring.tieSlice, BitVec.ofNat 12 idx⟩).freeMiss idx) with
              home.ht := tabDel s.home.ht idx
              home.dead := s.home.dead.map fun d => { d with opens := d.opens.filter (· != idx) } }

/-- Opens an entry at the lowest free index and lets it go on; nothing when none is free. -/
def State.openRun (s : State) (h : Ht) : State :=
  match tabFree s.home.ht 512 with
  | none => s
  | some i =>
    let (s, r) := (s.keep i (some h)).run i h .ok
    s.keep i r

/-- The action the epoch walks take on a line: a recall first when it changes slice and is tracked, then R314 (R313). -/
def State.epochTake (s : State) (l : LineId) : State :=
  if !s.changesHome l then s
  else
    let h := Ht.blank l .epoch .binv
    match s.sfFind l with
    | some (_, e) =>
      if s.leaves l then
        (s.ev 101).openRun (s.snooping h (if e.ov then snpUnique else snpInvalidate) false none)
      else s.openRun h
    | none => s.openRun h

/-- The reclaim of an entry whose owner is declared (R256). -/
def State.reclaimTake (s : State) (l : LineId) : State :=
  match s.sfFind l with
  | some (_, e) =>
    if e.ov && s.isDead e.own then
      s.openRun { (s.snooping (Ht.blank l (.reclaim e.own) .reclaim) snpInvalidate false none) with expect := false }
    else s
  | none => s

/-- An entry closed that the walks had passed takes its line's action (R256, R313). The reclaim so started does not count against the 16
that the walk keeps open at most: R256 states the limit for the walk's visits (DESIGN CHOICE, log 105). -/
def State.closed (s : State) (h : Ht) : State :=
  let s := if h.passed then s.epochTake h.line else s
  if h.rclm then s.reclaimTake h.line else s

/-- Entries that waited for what another entry held are tried again, in index order (DESIGN CHOICE: log 79). -/
def State.wakeAll (s : State) (p : Ht → Bool) : State :=
  s.home.ht.foldl (fun s e =>
    match tabGet s.home.ht e.1 with
    | some h =>
      if p h then
        match s.run e.1 h .ok with
        | (s, some h) => s.keep e.1 (some h)
        | (s, none) => (s.keep e.1 none).closed h
      else s
    | none => s) s

/-- What waits for entries of the RSP and DAT queues is tried again: snoops not sent yet and tally requests (R57, R221, R282). -/
def State.wakeRoom (s : State) : State := (s.wakeAll fun e => e.sw).tallyDue

/-- An entry waits for its bank only: for a loaf lock that has been released, or behind requests that the bank serves first (R32, R190). -/
def State.waitsBank (s : State) (h : Ht) : Bool := (h.lk && s.lockOpen h.line) || h.bw

/-- Of the entries that wait for their bank, but those in `but`, the one a bank serves first (R385). -/
def State.bankFirst (s : State) (but : List Nat) : Option (Nat × Ht) :=
  (s.home.ht.filter fun e => s.waitsBank e.2 && !but.contains e.1).foldl (fun a e => match a with
    | none => some e
    | some b =>
      if s.beats (s.htRank e.2).1 (s.htRank e.2).2 (s.htRank b.2).1 (s.htRank b.2).2 then some e else some b) none

/-- The entries that wait for their bank are tried again, those the bank serves first before others, each once. -/
def State.wakeRanked (s : State) (but : List Nat) : Nat → State
  | 0 => s
  | n + 1 =>
    match s.bankFirst but with
    | none => s
    | some (i, h) =>
      (match s.run i h .ok with
        | (s, some h) => s.keep i (some h)
        | (s, none) => (s.keep i none).closed h).wakeRanked (i :: but) n

/-- What waits for the bank is tried again in the bank's order: work under a loaf lock, and recalls that were outranked (R32, R190,
R385). -/
def State.wakeBank (s : State) : State := s.wakeRanked [] s.home.ht.length

/-- An entry that waits for a miss register could have one (R204). -/
def State.retryable (s : State) (h : Ht) : Bool :=
  h.mw && (List.range 16).any fun i => (tabGet s.mp.miss (16 * s.bankOf h.line + i)).isNone

/-- An entry that waited for a miss register of a bank is served before work of class `c` that arrived at `t`: it has kept its place (R204,
R385). -/
def State.retryFirst (s : State) (b : Nat) (c : BitVec 4) (t : BitVec 64) : Bool :=
  s.home.ht.any fun e => s.bankOf e.2.line = b && s.retryable e.2 && s.beats (s.htRank e.2).1 (s.htRank e.2).2 c t

/-- The INV_RANGEs whose last line has completed are answered (R291, R303, R477). -/
def State.invFinish (s : State) : State :=
  let fin (j : InvJob) : Bool := j.next.all (· ≥ j.r.len.toNat) && s.heldTags j.tags = [] &&
    !s.home.ht.any fun p => p.2.why = .inv j.r
  let done_ := s.home.invs.filter fin
  done_.foldl (fun s j => s.complete (.plain j.r (if j.bad then 9 else if j.nowin then 5 else 0) (j.bad || j.pois))) { s with home.invs := s.home.invs.filter fun j => !fin j }

/-- The DIGEST whose last line has been read is answered with its sum (R291, R303, R429). -/
def State.digFinish (s : State) : State :=
  match s.home.dig with
  | none => s
  | some j =>
    if (j.next.all (· ≥ j.r.len.toNat)) && s.heldTags j.tags = [] && !s.home.ht.any fun p => p.2.why = .digest j.r then
      if j.nowin then { s with home.dig := none }.answer j.r 5
      else { s with home.dig := none }.complete { r := j.r, rtype := 0, rcode := 0, pois := j.pois, grant := 0, scopew := false
                                                  rval := j.sum, data := none }
    else s

/-- The reclaim walk ends once every set is visited and every reclaim it opened has closed (R256). -/
def State.walkEnd (s : State) : State :=
  if s.home.walk && (s.home.dead.all fun d => !d.valid || d.done || d.left = 0) &&
      !s.home.ht.any fun p => p.2.st = .reclaim || p.2.rclm then
    { s with home.walk := false, home.walkSet := 0
             home.dead := s.home.dead.map fun (d : Dead) => if d.valid then { d with done := true } else d }.tobit 6
  else s

/-- After an entry went on: it is kept or closed, and whoever waited for it is woken. -/
def State.settle (s : State) (idx : Nat) (h : Ht) (r : Option Ht) : State :=
  let s := s.keep idx r
  if r.isSome then s.wakeRoom
  else (((s.closed h).wakeAll fun e => e.sfw).wakeBank.wakeRoom).invFinish.digFinish.walkEnd

/-- The entry at an index goes on. -/
def State.advance (s : State) (idx : Nat) (h : Ht) (c : Chk) : State :=
  let (s, r) := s.run idx h c
  s.settle idx h r

end Sys2Proof.Machine
end

