-- ==== Sys2Proof/Machine/Serve.lean ====
section
/-! DEFINITION. The line requests at the home engine: READ_SHARED to REDUCE, moves, and final writes that arrive (06 R196 to R204,
07 R219 to R239, 08 R247 to R251, 09 R277 to R283, 10 R303, R316, R318, 11 R330). -/
namespace Sys2Proof.Machine

/-! ### Which request is next -/

/-- The open entry of a line, with its index. -/
def State.entryOf (s : State) (l : LineId) : Option (Nat × Ht) := s.home.ht.find? fun p => p.2.line = l

/-- A READ_SHARED or READ_ONCE meets the miss register of its line's open entry (R201): one whose fill has not written the tags yet
(R203). A request that met a full waiter list waits for the line instead (R204). -/
def State.mergeable (s : State) (r : Req) : Option (Nat × Miss) :=
  if (r.opc = 0 || r.opc = 2) && !r.full && !s.deadReq r.name then
    (s.entryOf r.line).bind fun e =>
      if e.2.st = .mem then (s.missOf e.1).filter fun m => m.2.merge && m.2.st != .reply else none
  else none

/-! ### Evictions (R143, R238, R249, R318) -/

/-- The request is from OWN with OV at 1. -/
def State.fromOwner (s : State) (r : Req) : Bool := r.agent.isSome && s.ownerOf r.line = r.agent

/-- A stale eviction: COMP with GRANT I, the payload discarded, no change (R249). -/
def State.staleEvict (s : State) (r : Req) : State := ((s.freePay r false).complete (.plain r 0 false)).ev 72

/-- The answer to an EVICT_CLEAN of the owner (R224, R238). -/
def State.evictClean (s : State) (r : Req) : State := (s.sfDisown r.line).finish (.plain r 0 false)

/-! ### Snoops and checks of a request -/

/-- A WRITE_UNIQUE with a partial mask. -/
def Req.partial_ (r : Req) : Bool := r.opc = 6 && r.mask != BitVec.allOnes 128

/-- SOP and FWD of the snoop a request needs (R238, R250, R269). -/
def State.snoopOf (s : State) (r : Req) : Option (BitVec 2 × Bool) :=
  let e := s.untracked r.line
  let owner := (s.ownerOf r.line).any fun a => r.agent != some a
  match r.opc.toNat with
  | 0 | 2 => if owner then some (snpShared, !r.homeCurrent) else none
  | 1 => if e then none else some (snpUnique, owner)
  | 3 => if owner then some (snpUnique, true) else if e then none else some (snpInvalidate, false)
  | 8 | 9 => if owner then some (snpUnique, false) else if e then none else some (snpInvalidate, false)
  | _ =>
    if r.partial_ && owner then some (snpUnique, false) else if e then none else some (snpInvalidate, false)

/-- A buffer-space target of a knead request that has no frame and that R301 refuses one (R330, R346), and the state once it has
been placed. -/
def State.kneadTarget (s : State) (r : Req) : State × Option (BitVec 4) :=
  if r.space && (s.find r.line).isNone then
    let p := s.place { l := r.line, bank := s.bankOf r.line, data := 0, mt := .clear, cls := r.cls, why := .request }
    match p.2 with
    | .refuse code => (p.1, some code)
    | _ => (p.1, none)
  else (s, none)

/-- The checks of the opcode's own chapter made when the request is ordered: the state with the bits a failed check sets, and
the code (R283, R303, R330). -/
def State.chapterCheck (s : State) (r : Req) : Option (State × BitVec 4) :=
  if r.space && r.opc != 8 && r.opc != 9 && (s.windowOf r.line).isNone then some ((s.pinErr 3).evq 97 5, 5)
  else if r.opc = 6 && r.ext && r.land && !r.lfin && !bit s.land.ltLo 0 then
    some (s.landErr r.lgrp.toNat 2, 8)
  else if r.opc = 8 || r.opc = 9 then
    match s.kneadCheck r (payLine (s.payload r)) with
    | some (10, miss) =>
      let s := (s.kndErr r 0 0).ev 117
      some (if miss then (s.kndErr r 1 1).ev 111 else s, 10)
    | some (code, _) => some (s, code)
    | none =>
      match s.kneadTarget r with
      | (s, some code) => some (s, code)
      | (t, none) =>
        if r.op = 0x19 then
          (t.wopenRefused r (payLine (s.payload r))).map fun i => (s.kndErr r i i, 6)
        else none
  else none

/-- READ_SHARED or READ_UNIQUE of an absent buffer-space line: the zero line is placed first (R303). The code of a refusal, if
there is one. A buffer way is never waited for. -/
def State.zeroFirst (s : State) (r : Req) : State × Option (BitVec 4) :=
  if r.space && (r.opc = 0 || r.opc = 1) && (s.find r.line).isNone then
    let p := s.place { l := r.line, bank := s.bankOf r.line, data := 0, mt := .clear, cls := r.cls, why := .request }
    match p.2 with
    | .refuse code => (p.1, some code)
    | _ => (p.1.ev 103, none)
  else (s, none)

/-! ### The turn of a request -/

/-- The request leaves the queue. -/
def State.dequeue (s : State) (r : Req) : State := { s with home.q := s.home.q.erase r }

/-- Opens an entry for a request and lets it go on: the lowest free index (DESIGN CHOICE: log 78). Without a free entry a request that
needs one keeps its place (R220): a write, an ATOMIC or a REDUCE always does. -/
def State.order (s0 s : State) (r : Req) (h : Ht) (c : Chk) : State :=
  match tabFree s.home.ht 512 with
  | some idx => (s.keep idx (some h)).advance idx h c
  | none =>
    if r.opc = 4 || r.opc = 6 || r.opc = 8 || r.opc = 9 then s0
    else
      let (s, h') := s.run 512 h c
      if h'.isSome then s0 else s.settle 512 h h'

/-- A request takes its turn at a line that is free (R219, R238). `s0` is the state in which it keeps its place. -/
def State.serveLine (s0 s : State) (r : Req) (c : Chk) : State :=
  let h := Ht.blank r.line (.req r) .snpU
  if r.opc = 4 || r.opc = 5 then
    if r.space && !s.drained && (s.windowOf r.line).isNone then ((s.pinErr 3).evq 97 5).refuse r 5
    else if !s.fromOwner r then s.staleEvict r
    else if r.opc = 5 then (s.evictClean r).closed { h with passed := s.leaves r.line }
    else State.order s0 s r { h with passed := s.leaves r.line } c
  else if r.final && !s.isMove r && (s.released r).isNone then
    if r.crv && r.partial_ && (s.ownerOf r.line).any fun a => r.agent != some a then
      State.order s0 s r (s.snooping h snpUnique false r.agent) c
    else State.order s0 s r h c
  else match if s.isMove r || (s.released r).isSome then none else s.chapterCheck r with
    | some (s, code) => s.refuse r code
    | none =>
      let (s, code) := s.zeroFirst r
      match code with
      | some code => s.refuse r code
      | none =>
        let s := if r.opc.toNat ≤ 2 && r.opc != 1 && r.homeCurrent then s.ev 87 else s
        let s := if r.opc = 7 then s.ev 56 else s
        match s.snoopOf r with
        | none => State.order s0 (s.ev 70) r h c
        | some (sop, fwd) =>
          let s := if r.opc = 3 && sop = snpUnique then s.ev 74 else s
          State.order s0 s r (s.snooping h sop fwd r.agent) c

/-- A request that merges into a miss register joins its waiters. When the list is full it waits at the home engine until the line
is resident, which is counted once (R201, R204). -/
def State.merge (s : State) (r : Req) (t : Nat) (m : Miss) : State :=
  if m.waiters.length < 16 then
    { (s.dequeue r) with mp.miss := tabPut s.mp.miss t { m with waiters := m.waiters ++ [r] } }.ev 43
  else { s with home.q := s.home.q.map fun q => if q = r then { q with full := true } else q }.ev 45

/-- A request of a declared agent is discarded when its turn comes (R251). -/
def State.discard (s : State) (r : Req) : State := (((s.dequeue r).freePay r false).tobit 3).ev 77

/-- The tag and snoop-filter lookups of a request, with what the SECDED check of the snoop filter found (R219, R225). -/
def State.lookups (s : State) (r : Req) (c : Chk) : State := ((s.lookup r.line r.cls).charge 4 r.cls 1).sfEcc r.line c.sf r.cls

/-! ### Which request is next -/

/-- A request can be carried on with the transient entries there are (R220). -/
def State.fitsEntry (s : State) (r : Req) : Bool :=
  (tabFree s.home.ht 512).isSome || s.deadReq r.name || r.opc = 5 || (r.opc = 4 && !s.fromOwner r) || (s.mergeable r).isSome ||
    (r.opc != 4 && r.opc != 6 && r.opc != 8 && r.opc != 9 && (s.snoopOf r).isNone &&
      (r.opc = 3 || r.opc = 7 || r.space || (s.find r.line).isSome))

/-- The requests of a bank's queue that wait neither under R27, nor on a loaf lock, nor on a miss register, nor for a transient
entry (R220, R385). A READ_SHARED or READ_ONCE that could merge into a miss register but stands behind an older request for its line
keeps its place (DESIGN CHOICE: log 70). -/
def State.bankCands (s : State) (b : Nat) : List Req :=
  s.home.q.filter fun r => s.bankFor r = b && s.oldest r.line = some r && (s.lineFree r || (s.mergeable r).isSome) && s.fitsEntry r

/-- The request a bank serves next: the longest-waiting of those that are aged, else the one of highest current priority, and among
equals the earliest (R32, R385). -/
def State.bankChoice (s : State) (b : Nat) : Option Req :=
  (s.bankCands b).foldl (fun a r => match a with
    | none => some r
    | some q => if s.beats r.cls r.since q.cls q.since then some r else some q) none

/-- A bank has no request to serve before an access of class `c` that a request which arrived at `t` causes (R32). -/
def State.bankFree (s : State) (b : Nat) (c : BitVec 4) (t : BitVec 64) : Bool :=
  !s.retryFirst b c t && (s.bankChoice b).all fun q => !s.beats q.cls q.since c t

/-- The request that takes its turn on a line, of those for which `p` holds, if its bank serves it next: no other request, and no entry that
has waited for a miss register, comes before it. -/
def State.turnFor (s : State) (l : LineId) (p : Req → Bool) : Option Req :=
  (s.oldest l).filter fun r => p r && s.bankChoice (s.bankFor r) = some r && !s.retryFirst (s.bankFor r) r.cls r.since

/-- The turn of a request on its line. -/
def State.turn (s : State) (r : Req) (c : Chk) : State :=
  let s := s.strike c
  let s := if s.aged r.since then s.ev 135 else s
  if s.deadReq r.name && !s.transient r.line then s.discard r
  else match s.mergeable r with
    | some (t, m) => (s.lookups r c).merge r t m
    | none => State.serveLine s ((s.dequeue r).lookups r c) r c

/-- A command for a line: what the bank serves before it goes on first (R32); then the request whose turn it is, of those `p` admits, takes it;
bank accesses that waited for it go on, and snoops that waited for the queue entries it freed. -/
def State.takeTurn (s : State) (l : LineId) (p : Req → Bool) (c : Chk) : Host.Outcome State Fault Refusal :=
  match s.wakeBank.turnFor l p with
  | some r => s.did (s.wakeBank.turn r c).wakeBank.wakeRoom
  | none => s.did s.wakeBank

/-! ### Commands -/

/-- READ_SHARED (R196, R198, R201, R238, R269). -/
def execReadShared (l : LineId) (c : Chk) (s : State) : Host.Outcome State Fault Refusal := s.starting <|
  s.takeTurn l (fun r => r.opc = 0) c

/-- READ_UNIQUE (R196, R198, R238). -/
def execReadUnique (l : LineId) (c : Chk) (s : State) : Host.Outcome State Fault Refusal := s.starting <|
  s.takeTurn l (fun r => r.opc = 1) c

/-- READ_ONCE (R196, R198, R201, R238, R269, R303). -/
def execReadOnce (l : LineId) (c : Chk) (s : State) : Host.Outcome State Fault Refusal := s.starting <|
  s.takeTurn l (fun r => r.opc = 2) c

/-- CLEAN_UNIQUE (R238, R250). -/
def execCleanUnique (l : LineId) (c : Chk) (s : State) : Host.Outcome State Fault Refusal := s.starting <|
  s.takeTurn l (fun r => r.opc = 3) c

/-- An eviction that waits behind an entry is the owner's answer it expects (R247). -/
def State.canCross (s : State) (h : Ht) : Bool :=
  ((h.st = .snpS && h.cross) || ((h.st = .snpU || h.st = .binv) && h.expect && h.ans.isNone && h.sweep = 0 && !h.sw)) &&
    (s.evictionFor h).isSome

/-- An eviction of a line: taken in its turn, or as the answer that an open entry waits for (R247). -/
def State.evictCmd (s : State) (l : LineId) (opc : BitVec 5) (c : Chk) : Host.Outcome State Fault Refusal :=
  match s.entryOf l with
  | some (i, h) =>
    s.when (s.canCross h && (s.evictionFor h).any fun r => r.opc = opc) ((s.strike c).advance i h c)
  | none => s.takeTurn l (fun r => r.opc = opc) c

/-- WRITE_BACK (R143, R196, R238, R247, R249, R318). -/
def execWriteBack (l : LineId) (c : Chk) (s : State) : Host.Outcome State Fault Refusal := s.starting <| s.evictCmd l 4 c

/-- EVICT_CLEAN (R143, R238, R247, R249, R318). -/
def execEvictClean (l : LineId) (c : Chk) (s : State) : Host.Outcome State Fault Refusal := s.starting <| s.evictCmd l 5 c

/-- WRITE_UNIQUE (R49, R196, R238, R281), or a released final write (R284 step 5). -/
def execWriteUnique (l : LineId) (c : Chk) (s : State) : Host.Outcome State Fault Refusal := s.starting <|
  s.takeTurn l (fun r => r.opc = 6 && !s.isMove r && (!r.final || (s.released r).isSome)) c

/-- MOVE_RECEIVE (R316). -/
def execMoveReceive (l : LineId) (s : State) : Host.Outcome State Fault Refusal := s.starting <| s.takeTurn l (fun r => s.isMove r) .ok

/-- ZERO_LINE (R197, R238). -/
def execZeroLine (l : LineId) (c : Chk) (s : State) : Host.Outcome State Fault Refusal := s.starting <|
  s.takeTurn l (fun r => r.opc = 7) c

/-- ATOMIC (R239, R330). -/
def execAtomic (l : LineId) (c : Chk) (s : State) : Host.Outcome State Fault Refusal := s.starting <|
  s.takeTurn l (fun r => r.opc = 8) c

/-- REDUCE (R239, R330, R339). -/
def execReduce (l : LineId) (c : Chk) (s : State) : Host.Outcome State Fault Refusal := s.starting <|
  s.takeTurn l (fun r => r.opc = 9) c

/-! ### Final writes (R283, R284) -/

/-- FINAL_WRITE (R283): a final write takes its turn; it waits for its payload as R478 decides. -/
def execFinalWrite (l : LineId) (s : State) : Host.Outcome State Fault Refusal := s.starting <|
  s.takeTurn l (fun r => r.final && (s.released r).isNone && !s.isMove r) .ok

end Sys2Proof.Machine
end

