-- ==== Sys2Proof/Machine/Answers.lean ====
section
/-! DEFINITION. Answers to snoops, sweeps, resends, the dead-agent timer and the reclaim walk (07 R224, R229, R242, 08 R247 to
R257). -/
namespace Sys2Proof.Machine

/-! ### Responses that wait -/

def rspType (f : Flit) : BitVec 5 := fld f 128 5
def rspCode (f : Flit) : BitVec 4 := fld f 133 4
def rspPois (f : Flit) : Bool := bit f 137
def rspDie (f : Flit) : Nat := (fld f 146 4).toNat
def rspVal (f : Flit) : BitVec 64 := fld f 192 64

/-- The sources of responses, the ring first. -/
def sources : List Src := [.ring, .near .a, .near .b]

/-- The response at the head of a source's RSP queue for which `p` holds. -/
def State.rspAt (s : State) (p : Flit → Bool) : Option (Src × Flit) :=
  sources.findSome? fun x => match (s.rx x).rsp with
    | q :: _ => if p q.f then some (x, q.f) else none
    | [] => none

/-- The head of a source's RSP queue is taken. -/
def State.popRsp (s : State) (x : Src) : State := (s.setRx x { s.rx x with rsp := (s.rx x).rsp.drop 1 }).owe x 2 1

/-- A flit dropped because no transaction is open for it, or because its snoop does not expect it (R59, R241, R242). -/
def State.dropFlit (s : State) (b : Nat) (f : Flit) : State :=
  { s with home.err := setBit s.home.err b
           home.errsrc := pack 15 [(0, (fld f 16 12).toNat), (12, num (bit f 15)), (13, flitVc f)] }

def State.stray (s : State) (f : Flit) : State := (s.dropFlit 0 f).ev 5
def State.ownmis (s : State) (f : Flit) : State := (s.dropFlit 2 f).ev 79

/-- A message of a declared agent is dropped (R257). -/
def State.deadMsg (s : State) : State := (s.tobit 3).ev 77

/-! ### Line data that comes to the home (R42, R235) -/

/-- The first line-data flit of a name with this FIDX in the ring's DAT queue. -/
def State.datPart (s : State) (n : TxName) (i : Nat) : Option QFlit :=
  s.port.rx.dat.find? fun q => flitName q.f = n && (flitFidx q.f).toNat = i

/-- Both flits of a line sent to the home under a name are held. -/
def State.lineReady (s : State) (n : TxName) : Bool := (s.datPart n 0).isSome && (s.datPart n 1).isSome

/-- The line of two flits: data, poison, CRV, crust (R42, R402). -/
def lineFrom (a b : QFlit) : Line × (Bool × (Bool × Word)) :=
  (pack 1024 [(0, (fld a.f 128 512).toNat), (512, (fld b.f 128 512).toNat)],
    bit a.f 64 || bit b.f 64 || a.bad || b.bad, bit b.f 65 && !b.bad, fld b.f 66 32)

/-- Takes the line held under a name out of the DAT queue. -/
def State.takeLine (s : State) (n : TxName) : State × Option (Line × (Bool × (Bool × Word))) :=
  match s.datPart n 0, s.datPart n 1 with
  | some a, some b => ({ s with port.rx.dat := (s.port.rx.dat.erase a).erase b }, some (lineFrom a b))
  | _, _ => (s, none)

/-! ### Snoop responses (R252) -/

/-- The owner's answers an entry accepts (R252). -/
def accepts (h : Ht) (code : BitVec 5) : Bool :=
  match h.st with
  | .snpS => code = 0x08 || code = 0x09 || code = 0x0A || code = 0x0B || code = 0x0E
  | .snpU => code = 0x0F || ((code = 0x0C || code = 0x0D) && h.fwd) || (code = 0x08 && (h.sop = snpInvalidate || !h.fwd))
  | .binv => code = 0x08 || code = 0x0F
  | _ => false

/-- The snoop's name for the data an owner sends to the home (R235). -/
def State.snoopName (s : State) (idx : Nat) : TxName := ⟨true, s.ring.tieSlice, BitVec.ofNat 12 idx⟩

def dataAnswer (code : BitVec 5) : Bool := code = 0x0E || code = 0x0F

/-- The home copy of a line carries PSN 1, in its slot, in its line-buffer entry, or in the bank of the previous map. -/
def State.homePsn (s : State) (l : LineId) : Bool :=
  match s.lbFind l with
  | some (_, e) => e.mt.psn
  | none => match (s.find l).orElse fun _ => s.findIn (s.oldBank l) l with
    | some (k, i) => (s.slotAt k i).any fun x => x.mt.psn
    | none => false

/-- An answer from OWN that its entry expects (R224, R247, R252). Line data an owner sends is no write of the whole line: where it replaces a
poisoned home copy it stays poisoned (R414, R415). -/
def State.accept (s : State) (idx : Nat) (h : Ht) (code : BitVec 5) : State :=
  let s := if code = 0x0B then s else s.sfDisown h.line
  if h.st = .snpS && code = 0x08 then s.advance idx { h with cross := true } .ok
  else if dataAnswer code then
    match s.takeLine (s.snoopName idx) with
    | (s, some (d, p, crv, c)) =>
      let (s, d) := s.ownerData h.line d (p || s.homePsn h.line) crv c (s.htClass h) h.own
      s.advance idx { h with ans := some code, data := some d } .ok
    | (s, none) => s
  else s.advance idx { h with ans := some code } .ok

/-- The entry expects this answer, and from this agent (R230, R252). -/
def expects (h : Ht) (n : TxName) (code : BitVec 5) : Bool :=
  !n.sty && h.own = some n.src && h.expect && h.ans.isNone && !h.cross && !h.sw && accepts h code

/-- A snoop response other than SNP_SWEPT (R230, R242, R252, R257). A response dropped as OWNMIS leaves the data flits under the
snoop's name alone: they can be the owner's. Those of a declared owner are dropped with its response. -/
def State.answerIn (s : State) (x : Src) (f : Flit) (code : BitVec 5) : State :=
  let n := flitName f
  let idx := n.txn.toNat
  let s := s.popRsp x
  let e := tabGet s.home.ht idx
  if s.deadReq n then
    (if dataAnswer code && e.any fun h => h.own = some n.src then (s.takeLine (s.snoopName idx)).1 else s).deadMsg.wakeRoom
  else match e with
    | none => (s.stray f).wakeRoom
    | some h =>
      if expects h n code then s.accept idx h code
      else (s.ownmis f).wakeRoom

/-- A snoop response is ready to be taken: a response that reports data sent to the home once that data is held, or when it is
to be dropped anyway (R232). -/
def State.answerReady (s : State) (code : BitVec 5) (f : Flit) : Bool :=
  rspType f = code && (!dataAnswer code || s.lineReady (s.snoopName (flitName f).txn.toNat) ||
    s.deadReq (flitName f) || !((tabGet s.home.ht (flitName f).txn.toNat).any fun h => expects h (flitName f) code))

def State.answerCmd (s : State) (code : BitVec 5) : Host.Outcome State Fault Refusal :=
  match s.rspAt (s.answerReady code) with
  | some (x, f) => s.did (s.answerIn x f code)
  | none => .next s

/-- SNP_RSP_I (R224, R247, R252). -/
def execSnpRspI (s : State) : Host.Outcome State Fault Refusal := s.starting <| s.answerCmd 0x08

/-- SNP_RSP_S (R224, R252). -/
def execSnpRspS (s : State) : Host.Outcome State Fault Refusal := s.starting <| s.answerCmd 0x09

/-- SNP_RSP_S_FWD (R224, R236, R252). -/
def execSnpRspSFwd (s : State) : Host.Outcome State Fault Refusal := s.starting <| s.answerCmd 0x0A

/-- SNP_RSP_O_FWD (R224, R236, R252). -/
def execSnpRspOFwd (s : State) : Host.Outcome State Fault Refusal := s.starting <| s.answerCmd 0x0B

/-- SNP_RSP_I_FWD (R224, R252). -/
def execSnpRspIFwd (s : State) : Host.Outcome State Fault Refusal := s.starting <| s.answerCmd 0x0C

/-- SNP_RSP_I_FWD_D (R224, R236, R252). -/
def execSnpRspIFwdD (s : State) : Host.Outcome State Fault Refusal := s.starting <| s.answerCmd 0x0D

/-- SNP_RSP_S_DATA (R224, R226, R252). -/
def execSnpRspSData (s : State) : Host.Outcome State Fault Refusal := s.starting <| s.answerCmd 0x0E

/-- SNP_RSP_I_DATA (R224, R226, R252). -/
def execSnpRspIData (s : State) : Host.Outcome State Fault Refusal := s.starting <| s.answerCmd 0x0F

/-! ### Sweeps (R229, R248) -/

/-- The sweep of a die is complete. -/
def State.sweepDone (s : State) (idx : Nat) (h : Ht) (die : Nat) : State :=
  s.advance idx { h with sweep := clrBit h.sweep die, swept := setBit h.swept die } .ok

/-- SNP_SWEPT (R229, R252). -/
def State.sweptIn (s : State) (x : Src) (f : Flit) : State :=
  let n := flitName f
  let s := s.popRsp x
  match tabGet s.home.ht n.txn.toNat with
  | none => (s.stray f).wakeRoom
  | some h =>
    if n.sty && (h.st = .snpU || h.st = .binv || h.st = .reclaim) && !h.sw && bit (s.relayed h) (rspDie f) then
      (s.ev 67).sweepDone n.txn.toNat h (rspDie f)
    else (s.ownmis f).wakeRoom

/-- SNP_SWEPT arrives for its entry. -/
def execSnpSwept (s : State) : Host.Outcome State Fault Refusal := s.starting <|
  match s.rspAt fun f => rspType f = 0x10 with
  | some (x, f) => s.did (s.sweptIn x f)
  | none => .next s

/-- The conditions of a resend (R248). -/
def State.resendable (s : State) (h : Ht) : Bool :=
  (h.st = .snpU || h.st = .binv) && h.expect && h.ans.isNone && h.sweep = 0 && !h.sw && !s.evictionWaits h

/-- SNOOP_RESEND (R108, R248): the snoop goes again to OWN's die, whose sweep is awaited again. It reserves nothing anew: the reservation of an
answer that has not come stands, and that of one that has come ended as it was taken; R221 does not say when a reservation ends (DESIGN
CHOICE, log 103). -/
def execSnoopResend (e : BitVec 9) (s : State) : Host.Outcome State Fault Refusal :=
  match tabGet s.home.ht e.toNat with
  | some h =>
    let die := setBit 0 (dieOf (h.own.getD 0))
    let s' := (s.sendSweep e.toNat h die).ev 71
    s.when (s.resendable h) (s'.keep e.toNat (some { h with sweep := die }))
  | none => .next s

/-! ### Dead agents (R253 to R257) -/

/-- The dead-agent timer of an entry runs: it waits for payload, or for an answer or a SNP_SWEPT to a snoop it has sent (R253). -/
def State.timed (s : State) (h : Ht) : Bool :=
  h.timer && match h.st, h.why with
    | .wb, .req r => !s.payReady r
    | _, _ => !h.sw && ((h.expect && h.ans.isNone) || s.relayed h != 0)

/-- An entry completes as on timer expiry (R254). -/
def State.expire (s : State) (idx : Nat) (h : Ht) : State :=
  match h.st, h.why with
  | .wb, .req r => ((s.freeMiss idx).expirePay r).settle idx h none
  | _, _ =>
    let (s, h) := s.expireWait h
    s.advance idx h .ok

/-- DEAD_AGENT_TIMEOUT (R253, R254). -/
def execDeadAgentTimeout (e : BitVec 9) (s : State) : Host.Outcome State Fault Refusal :=
  match tabGet s.home.ht e.toNat with
  | some h => s.when (s.timed h) (s.expire e.toNat h)
  | none => .next s

/-- A declared row has sets left to visit. -/
def State.walkDue (s : State) : Bool := s.home.dead.any fun d => d.valid && !d.done

/-- Every entry open at a declaration has closed (R256). -/
def State.opensClosed (s : State) : Bool := s.home.dead.all fun d => !d.valid || d.opens = []

/-- RECLAIM_WALK_START (R256). -/
def execReclaimWalkStart (s : State) : Host.Outcome State Fault Refusal :=
  s.when (s.ctl.st = .running && !s.home.walk && s.walkDue && s.opensClosed) { s with home.walk := true }

/-- The entries of a set whose owner is declared, by way. -/
def State.deadKeys (s : State) (set : Nat) : List Nat :=
  ((List.range 16).map (set * 16 + ·)).filter fun k =>
    (tabGet s.home.sf k).any fun e => e.ov && s.isDead e.own

/-- The walk meets one entry: passed under an open entry, or reclaimed. -/
def State.reclaimKey (s : State) (k : Nat) : State :=
  match tabGet s.home.sf k with
  | none => s
  | some e =>
    match s.entryOf (e.line k) with
    | some (i, h) => if h.st = .reclaim then s else s.keep i (some { h with rclm := true })
    | none => s.reclaimTake (e.line k)

/-- The reclaims a visit of a set opens. -/
def State.reclaimsOf (s : State) (set : Nat) : Nat :=
  ((s.deadKeys set).filter fun k => (tabGet s.home.sf k).any fun e => !s.transient (e.line k)).length

/-- One set of the reclaim walk (R256). -/
def State.walkVisit (s : State) : State :=
  let set := s.home.walkSet
  let s := (s.deadKeys set).foldl State.reclaimKey s
  { s with home.walkSet := (set + 1) % 8192
           home.dead := s.home.dead.map fun (d : Dead) => if d.valid && !d.done then { d with left := d.left - 1 } else d }.walkEnd

/-- RECLAIM_WALK_VISIT (R256): the next set, when the reclaims it needs keep within 16 and have entries free. -/
def execReclaimWalkVisit (s : State) : Host.Outcome State Fault Refusal := s.starting <|
  let n := s.reclaimsOf s.home.walkSet
  s.when (s.ctl.st = .running && s.home.walk && s.opensClosed &&
      (s.home.dead.any fun d => d.valid && !d.done && d.left != 0) &&
      s.openCount (fun h => h.st = .reclaim) + n ≤ 16 && s.home.ht.length + n ≤ 512) s.walkVisit

end Sys2Proof.Machine
end

