-- ==== Sys2Proof/Machine/Image.lean ====
section
/-! DEFINITION. The shape image: its sections, the checks of R168 in their order, the basic profiles, and the configuration an
image gives (05 R158 to R172, R469 and R470, with the sections of 06, 09, 10, 11, 13, 14 and 15). -/
namespace Sys2Proof.Machine

/-! ### Sections (R159 to R162) -/

/-- A failed check: code, section type, word offset (R168, R470). -/
structure LoadErr where
  code : Nat
  sect : Nat
  off  : Nat
  deriving DecidableEq, Repr

/-- A section: its type, the word offset of its header, and its value. -/
structure Sect where
  typ : Nat
  off : Nat
  val : List Word

/-- The largest VLEN of a section type that the slice accepts (R162). -/
def maxVlen (typ : Nat) : Option Nat :=
  match typ with
  | 0x0001 | 0x0011 | 0x0022 => some 4
  | 0x0010 | 0x0040 | 0x0060 => some 256
  | 0x0020 | 0x0021 => some 16384
  | 0x0030 | 0x0080 | 0x0090 => some 1024
  | 0x0050 => some 512
  | 0x0070 => some 2068
  | t => if 0xFF00 ≤ t then some 4096 else none

/-- The one VLEN of a section type, where its defining rule states one (R469). -/
def exactVlen (typ : Nat) : Option Nat :=
  match typ with
  | 0x0001 | 0x0011 | 0x0022 => some 4
  | 0x0010 => some 172
  | 0x0040 => some 8
  | 0x0050 => some 136
  | 0x0060 => some 12
  | 0x0070 => some 2068
  | 0x0080 => some 320
  | 0x0090 => some 28
  | _ => none

/-- VLEN of a PIN section is 4 × (18 + 4 × NWIN) (R320). -/
def pinVlenBad (val : List Word) : Bool :=
  match val with
  | [] => true
  | w :: _ => val.length != 18 + 4 * (fld w 4 5 : BitVec 5).toNat

/-- The sections from word `off` on, or the first fault of their structure (R161, R162, R168 IMG_SECT). -/
def parseSects : Nat → Nat → Nat → List Word → Except LoadErr (List Sect)
  | 0, _, _, _ => .ok []
  | _ + 1, _, _, [] => .ok []
  | _ + 1, _, _, [_] => .error ⟨7, 0, 2⟩
  | fuel + 1, off, last, h :: v :: rest =>
    let typ := (fld h 0 16 : BitVec 16).toNat
    let n := v.toNat / 4
    match maxVlen typ with
    | none => .error ⟨7, typ, off⟩
    | some m =>
      if (fld h 16 16 : BitVec 16) != 0 || typ ≤ last then .error ⟨7, typ, off⟩
      else if v.toNat > m || v.toNat % 4 != 0 || n > rest.length || (typ == 0x30 && pinVlenBad (rest.take n)) then
        .error ⟨7, typ, off + 1⟩
      else match parseSects fuel (off + 2 + n) typ (rest.drop n) with
        | .ok l => .ok (⟨typ, off, rest.take n⟩ :: l)
        | .error e => .error e

/-- The value of a section type, when the image carries it. -/
def sectOf (l : List Sect) (typ : Nat) : Option Sect := l.find? fun x => x.typ = typ

def wordAt (v : List Word) (i : Nat) : Word := nth v i 0

/-- A field of a value, as a number. -/
def numAt (v : List Word) (i lo w : Nat) : Nat := (fld (wordAt v i) lo w : BitVec w).toNat

/-- No bit outside the mask is set. -/
def within (w : Word) (mask : Nat) : Bool := w.toNat &&& mask == w.toNat

/-! ### ARRAY (R214, R215) -/

/-- Cache ways of a bank outside WAYOFF, for a division and a WAYOFF word. -/
def liveCache (cairnw bufw : Nat) (wayoff : BitVec 16) : Nat :=
  ((List.range (16 - cairnw - bufw)).filter fun w => !bit wayoff w).length

/-- One of 8 drop regions; one that is not enabled has no contents. -/
def regionOf (v : List Word) (j : Nat) : Region :=
  if numAt v (12 + 4 * j) 31 1 = 1 then
    { en := true, first := BitVec.ofNat 52 (numAt v (11 + 4 * j) 0 32 + numAt v (12 + 4 * j) 0 20 * 2 ^ 32)
      last := BitVec.ofNat 52 (numAt v (13 + 4 * j) 0 32 + numAt v (14 + 4 * j) 0 20 * 2 ^ 32) }
  else { en := false, first := 0, last := 0 }

/-- The ARRAY section's settings. -/
def arrOf (v : List Word) : ArrCfg :=
  { insvc := fld (wordAt v 0) 0 16, comp := bit (wordAt v 0) 16, seed := fld (wordAt v 1) 0 16
    cairnw := fld (wordAt v 2) 0 4, bufw := fld (wordAt v 2) 4 4
    wayoff := (List.range 16).map fun b => fld (wordAt v (3 + b / 2)) (16 * (b % 2)) 16
    regions := (List.range 8).map (regionOf v) }

/-- Word `i` of an ARRAY value is allowed. -/
def arrWordOk (v : List Word) (i : Nat) : Bool :=
  let w := wordAt v i
  let a := arrOf v
  if i = 0 then within w 0x1FFFF
  else if i = 1 then within w 0xFFFF && w != 0
  else if i = 2 then within w 0xFF
  else if i < 11 then [2 * (i - 3), 2 * (i - 3) + 1].all fun b =>
    !bit a.insvc b || 2 ≤ liveCache a.cairnw.toNat a.bufw.toNat (nth a.wayoff b 0)
  else
    let r := regionOf v ((i - 11) / 4)
    match (i - 11) % 4 with
    | 0 => within w 0xFFFFFF80
    | 1 => within w 0x800FFFFF
    | 2 => within w 0xFFFFFF80 && (!r.en || r.first.toNat ≤ r.last.toNat)
    | _ => within w 0xFFFFF

/-- Frames in cairn and buffer ways of the banks of a mask, outside WAYOFF (R294). -/
def pinShare (a : ArrCfg) (banks : BitVec 16) : Nat :=
  let c := a.cairnw.toNat + a.bufw.toNat
  (List.range 16).foldl (fun n b => if bit banks b then
    n + 768 * ((List.range 16).filter fun w => 16 - c ≤ w && !bit (nth a.wayoff b 0) w).length else n) 0

/-! ### PIN (R302, R320) -/

def windowAt (v : List Word) (w : Nat) : Window :=
  { cls := fld (wordAt v (18 + 4 * w)) 0 4
    first := BitVec.ofNat 43 (numAt v (18 + 4 * w) 9 23 + numAt v (19 + 4 * w) 0 20 * 2 ^ 23)
    last := BitVec.ofNat 43 (numAt v (20 + 4 * w) 9 23 + numAt v (21 + 4 * w) 0 20 * 2 ^ 23) }

/-- The PIN section's settings. -/
def pinOf (v : List Word) : PinCfg :=
  { demrate := fld (wordAt v 0) 0 4, thrlim := fld (wordAt v 1) 0 16
    quota := (List.range 16).map fun c => fld (wordAt v (2 + c)) 0 18
    windows := (List.range (numAt v 0 4 5)).map (windowAt v) }

/-- A window is ordered and disjoint from those before it. -/
def windowOk (v : List Word) (w : Nat) : Bool :=
  let x := windowAt v w
  x.first.toNat ≤ x.last.toNat && (List.range w).all fun u =>
    let y := windowAt v u
    x.last.toNat < y.first.toNat || y.last.toNat < x.first.toNat

/-- Word `i` of a PIN value is allowed. -/
def pinWordOk (v : List Word) (i : Nat) : Bool :=
  let w := wordAt v i
  if i = 0 then within w 0x1FF && numAt v 0 4 5 ≤ 16
  else if i = 1 then within w 0xFFFF
  else if i < 18 then within w 0x3FFFF
  else match (i - 18) % 4 with
    | 0 => within w 0xFFFFFE0F && windowOk v ((i - 18) / 4)
    | 2 => within w 0xFFFFFE00
    | _ => within w 0xFFFFF

/-- Every window in force stays, with its first and last loaf (R302). -/
def keepsWindows (old new : List Window) : Bool :=
  old.all fun w => new.any fun x => x.first = w.first && x.last = w.last

/-! ### The other sections -/

/-- KNEAD (R352). -/
def kndOf (v : List Word) : KndCfg :=
  { lanes := (List.range 4).map fun n => fld (wordAt v 0) (8 * n) 8, seed := fld (wordAt v 1) 0 16 }

def kndWordOk (v : List Word) (i : Nat) : Bool :=
  let k := kndOf v
  if i = 0 then within (wordAt v 0) 0x7F7F7F7F && (k.seed != 0 || k.lanes.all fun b => !bit b 6)
  else within (wordAt v 1) 0xFFFF

/-- QOS (R380). -/
def qosOf (v : List Word) : QosCfg :=
  { shift := fld (wordAt v 0) 0 4, upd := fld (wordAt v 0) 4 4, age := fld (wordAt v 0) 8 5, iclass := fld (wordAt v 0) 16 4
    rlEn := bit (wordAt v 1) 0, rlIdle := fld (wordAt v 1) 1 4, rlStart := fld (wordAt v 1) 5 2, rlStep := fld (wordAt v 1) 7 4
    cls := (List.range 16).map fun c =>
      let w := wordAt v (2 + 2 * c)
      { target := fld w 0 16, base := fld w 16 3, gmen := bit w 19, ports := fld w 20 6, res := fld (wordAt v (3 + 2 * c)) 0 9 } }

def between (x a b : Nat) : Bool := decide (a ≤ x) && decide (x ≤ b)

def qosWordOk (v : List Word) (i : Nat) : Bool :=
  let w := wordAt v i
  if i = 0 then within w 0xF1FFF && between (numAt v 0 0 4) 1 8 && between (numAt v 0 4 4) 0 10 && between (numAt v 0 8 5) 6 16
  else if i = 1 then within w 0x7FF && between (numAt v 1 1 4) 6 14 && between (numAt v 1 7 4) 4 10
  else if i % 2 = 0 then within w 0x3FFFFFF
  else within w 0x1FF && w.toNat ≤ 256

/-- CHECK (R400). -/
def chkOf (v : List Word) : ChkCfg :=
  { level := fld (wordAt v 0) 0 2, scrubEn := bit (wordAt v 0) 2, scrubp := fld (wordAt v 0) 4 4
    suspmask := fld (wordAt v 0) 16 8, patEn := bit (wordAt v 1) 0, pint := fld (wordAt v 1) 1 5
    parlim := fld (wordAt v 2) 0 16, reslim := fld (wordAt v 2) 16 16 }

def chkWordOk (v : List Word) (i : Nat) : Bool :=
  if i = 0 then within (wordAt v 0) 0xFF00F7 && 8 ≤ numAt v 0 4 4
  else if i = 1 then within (wordAt v 1) 0x3F && between (numAt v 1 1 5) 10 24
  else true

/-- LINK (R166), with the reserved bits of R109 and R139. -/
def linkOf (v : List Word) : LinkCfg :=
  { enable := bit (wordAt v 0) 0, cap := wordAt v 1, cfg := wordAt v 2, fwd := wordAt v 3, phyc := wordAt v 4, dies := v.drop 5 }

def linkWordOk (v : List Word) (i : Nat) : Bool :=
  let w := wordAt v i
  if i = 0 then within w 1
  else if i = 1 then within w 0x1FF && numAt v 1 0 2 != 3
  else if i < 4 then within w 0xFFFF
  else if i = 4 then within w 7
  else true

/-- COUNT (R459): the mode of each counter. -/
def countOf (v : List Word) : List (BitVec 16) := (List.range 160).map fun i => fld (wordAt v (i / 2)) (16 * (i % 2)) 16

/-- The events that accept a qualifier (R451). -/
def qualified (i : Nat) : Bool := [15, 97, 104, 120, 129, 132, 133, 134, 136, 137, 141, 143, 150, 155].contains i

/-- A counter's mode is allowed (R453, R454, R459). -/
def modeOk (i : Nat) (m : BitVec 16) : Bool :=
  (fld m 13 3 : BitVec 3) == 0 && (fld m 0 2 : BitVec 2) != 3 && (!bit m 2 || i % 2 == 1) && (!bit m 4 || qualified i)

def countWordOk (v : List Word) (i : Nat) : Bool :=
  modeOk (2 * i) (fld (wordAt v i) 0 16) && modeOk (2 * i + 1) (fld (wordAt v i) 16 16)

/-- ENERGY (R447). -/
def enOf (v : List Word) : EnCfg :=
  { erptEn := bit (wordAt v 0) 0, erper := fld (wordAt v 0) 1 5
    coef := (List.range 12).map fun k => fld (wordAt v (1 + k / 2)) (16 * (k % 2)) 16 }

def enWordOk (v : List Word) (i : Nat) : Bool := i != 0 || (within (wordAt v 0) 0x3F && between (numAt v 0 1 5) 10 20)

/-- The PROFILE word is allowed (R170). -/
def profWordOk (w : Word) : Bool :=
  let f (lo n : Nat) : Nat := (fld w lo n : BitVec n).toNat
  !bit w 3 && !bit w 7 && !between (f 4 3) 4 6 && !between (f 8 4) 13 14 && !between (f 12 4) 13 14

/-- Word `i` of a section's value is allowed: its fields in range, its reserved bits 0. Maps have a check of their own. -/
def wordOk (x : Sect) (i : Nat) : Bool :=
  match x.typ with
  | 0x0001 => profWordOk (wordAt x.val 0)
  | 0x0010 => arrWordOk x.val i
  | 0x0011 | 0x0022 => within (wordAt x.val 0) 1
  | 0x0030 => pinWordOk x.val i
  | 0x0040 => kndWordOk x.val i
  | 0x0050 => qosWordOk x.val i
  | 0x0060 => chkWordOk x.val i
  | 0x0070 => linkWordOk x.val i
  | 0x0080 => countWordOk x.val i
  | 0x0090 => enWordOk x.val i
  | _ => true

/-! ### Basic profiles (R170 to R172) -/

/-- Cairn ways, buffer ways, check level, knead groups of every lane, LX12 mode and class preset of a profile (R171). -/
def profRow (code : Nat) : Nat × (Nat × (Nat × (Nat × (Bool × Nat)))) :=
  match code with
  | 0 => (0, 0, 2, 0x01, false, 0)
  | 1 => (2, 0, 1, 0x03, false, 1)
  | 2 => (6, 0, 2, 0x1F, false, 2)
  | 3 => (2, 8, 1, 0x2F, false, 2)
  | 4 => (2, 10, 2, 0x2F, false, 3)
  | 5 => (2, 4, 2, 0x3F, false, 1)
  | 6 => (8, 0, 2, 0x03, true, 0)
  | _ => (0, 0, 3, 0x01, false, 0)

/-- Latency target, reservation and base priority of a class under preset C, R, T or D (R172). -/
def presetRow (preset c : Nat) : Nat × (Nat × Nat) :=
  match preset, c / 4 with
  | 0, _ => (2048, 8, 3)
  | 1, 0 => (1024, 16, 5)
  | 1, 3 => (16384, 4, 1)
  | 1, _ => (2048, 8, 3)
  | 2, 0 => (2048, 8, 4)
  | 2, 3 => (16384, 8, 2)
  | 2, _ => (4096, 12, 3)
  | _, 0 => (512, 32, 6)
  | _, 3 => (16384, 4, 1)
  | _, _ => (2048, 8, 3)

/-- The reference energy coefficients (R446). -/
def refCoef : List (BitVec 16) := [27307, 5120, 5120, 640, 512, 2048, 8192, 3413, 1024, 1536, 4096, 2875]

/-- The ARRAY contents of a PROFILE word (R171, R215). -/
def profArr (w : Word) : ArrCfg :=
  let row := profRow (fld w 0 3 : BitVec 3).toNat
  let pinw := (fld w 8 4 : BitVec 4).toNat
  let bufw := (fld w 12 4 : BitVec 4).toNat
  { insvc := 0xFFFF, comp := (fld w 0 3 : BitVec 3) != 7, seed := 0xACE1
    cairnw := BitVec.ofNat 4 (if pinw = 15 then row.1 else pinw), bufw := BitVec.ofNat 4 (if bufw = 15 then row.2.1 else bufw)
    wayoff := List.replicate 16 0, regions := List.replicate 8 { en := false, first := 0, last := 0 } }

/-- The PIN contents of a profile under an ARRAY: every quota the nominal pinned share (R171, R320). -/
def profPin (arr own : ArrCfg) : PinCfg :=
  { demrate := 4, thrlim := 64, quota := List.replicate 16 (BitVec.ofNat 18 (pinShare arr arr.insvc))
    windows := if own.bufw = 0 then [] else [{ first := 0, last := BitVec.allOnes 43, cls := 0 }] }

/-- The QOS contents of a profile (R172, R381). -/
def profQos (preset : Nat) : QosCfg :=
  { shift := 4, upd := 4, age := 10, iclass := 0, rlEn := true, rlIdle := 10, rlStart := 0, rlStep := 6
    cls := (List.range 16).map fun c =>
      let r := presetRow preset c
      { target := BitVec.ofNat 16 r.1, base := BitVec.ofNat 3 r.2.2, gmen := true, ports := 0x3F, res := BitVec.ofNat 9 r.2.1 } }

/-- The sections of a configuration that a PROFILE word gives, but for ARRAY and PIN (R171). -/
def withProfile (c : Cfg) (w : Word) : Cfg :=
  let (_, _, level, lane, compat, preset) := profRow (fld w 0 3 : BitVec 3).toNat
  let chk : BitVec 3 := fld w 4 3
  let seed : BitVec 16 := fld w 16 16
  { c with
    compat
    knd := { lanes := List.replicate 4 (BitVec.ofNat 8 (lane + if seed = 0 then 0 else 0x40)), seed }
    qos := profQos preset
    chk := { level := if chk = 7 then BitVec.ofNat 2 level else chk.setWidth 2, scrubEn := true, scrubp := 11, suspmask := 0xFF
             patEn := true, pint := 20, parlim := 16, reslim := 16 }
    count := List.replicate 160 0
    ener := { erptEn := true, erper := 14, coef := refCoef } }

/-! ### The configuration an image gives (R163 to R165) -/

/-- What a load that passes every check applies. -/
structure Image where
  cfg    : Cfg
  epoch  : Bool
  gov    : Byte
  prof   : Option Word
  serial : Word

/-- The governed section types, in the order of their bits (R163). -/
def governed : List Nat := [0x10, 0x11, 0x30, 0x40, 0x50, 0x60, 0x80, 0x90]

/-- PARTIAL (R159). -/
def partialImage (img : List Word) : Bool := bit (wordAt img 1) 16

/-- The ARRAY contents in force after the load. -/
def arrAfter (cur : ArrCfg) (l : List Sect) : ArrCfg :=
  match sectOf l 0x10, sectOf l 1 with
  | some x, _ => arrOf x.val
  | none, some p => profArr (wordAt p.val 0)
  | none, none => cur

/-- The configuration in force after a load: what the sections and the profile give, the rest kept by a partial image and
set anew by a full one. -/
def cfgAfter (cur : Cfg) (img : List Word) (l : List Sect) : Cfg :=
  let prof := sectOf l 1
  let arr := arrAfter cur.arr l
  let c := if partialImage img then cur else { Cfg.reset with prevMap := cur.prevMap }
  let c := match prof with
    | some p => { withProfile c (wordAt p.val 0) with pin := profPin arr (profArr (wordAt p.val 0)) }
    | none => c
  let get {α : Type} (typ : Nat) (f : List Word → α) (old : α) : α := ((sectOf l typ).map fun x => f x.val).getD old
  let mapA := get 0x20 id c.mapA
  { c with
    arr, mapA
    compat := get 0x11 (fun v => bit (wordAt v 0) 0) c.compat
    mapB := get 0x21 id (if partialImage img then c.mapB else mapA)
    pin := get 0x30 pinOf c.pin
    knd := get 0x40 kndOf c.knd
    qos := get 0x50 qosOf c.qos
    chk := get 0x60 chkOf c.chk
    link := get 0x70 linkOf c.link
    count := get 0x80 countOf c.count
    ener := get 0x90 enOf c.ener }

/-- The governed sections a profile gives after the load. -/
def govAfter (cur : Byte) (img : List Word) (l : List Sect) : Byte :=
  pack 8 ((List.range 8).map fun i => (i, num
    (if (sectOf l (nth governed i 0)).isSome then false
     else if (sectOf l 1).isSome then true else partialImage img && bit cur i)))

/-! ### The checks (R167, R168, R470) -/

/-- The check made when word `i` arrives (R167): MAGIC, FMT, LENGTH. -/
def earlyErr (i : Nat) (w : Word) : Option LoadErr :=
  if i = 0 && w != 0x53484150 then some ⟨1, 0, 0⟩
  else if i = 1 && (fld w 0 16 : BitVec 16) != 1 then some ⟨2, 0, 1⟩
  else if i = 2 && (w.toNat < 40 || w.toNat > 65536 || w.toNat % 4 != 0) then some ⟨3, 0, 2⟩
  else none

/-- The bytes of the image with the CRC field taken as 0 (R160). -/
def imageBytes (img : List Word) : List Byte := (img.set 8 0).flatMap fun w => bytesOf w 4

/-- Header checks after reception: block version, integration tag, CRC. -/
def headerErr (itag : BitVec 64) (img : List Word) : Option LoadErr :=
  let w := wordAt img
  if Config.blkId.toNat < (w 3).toNat then some ⟨4, 0, 3⟩
  else if (w 4).toNat < Config.blkId.toNat then some ⟨4, 0, 4⟩
  else if w 5 != fld itag 0 32 then some ⟨5, 0, 5⟩
  else if w 6 != fld itag 32 32 then some ⟨5, 0, 6⟩
  else if w 8 != crc32c (imageBytes img) then some ⟨6, 0, 8⟩
  else none

/-- The sections of an image whose structure is sound (IMG_SECT). -/
def sections (img : List Word) : Except LoadErr (List Sect) :=
  if (fld (wordAt img 1) 17 15 : BitVec 15) != 0 then .error ⟨7, 0, 1⟩
  else if (fld (wordAt img 7) 16 16 : BitVec 16) != 0 then .error ⟨7, 0, 7⟩
  else match parseSects 16384 10 0 (img.drop 10) with
    | .error e => .error e
    | .ok l => if l.length = (fld (wordAt img 7) 0 16 : BitVec 16).toNat then .ok l else .error ⟨7, 0, 7⟩

/-- IMG_PARTIAL: a kind of image the origin does not allow, a required section missing, or a section the origin forbids
(R163, R164). -/
def partialErr (orig : SlState) (cur : Cfg) (epoch : Bool) (img : List Word) (l : List Sect) : Option LoadErr :=
  let part := partialImage img
  if (orig = .shapeless && part) || (orig = .quiesced && !part) then some ⟨8, 0, 1⟩
  else if !part then
    ((([0x20, 0x22] ++ if (sectOf l 1).isSome then [] else governed).filter fun t => (sectOf l t).isNone).foldl
      (fun (a : Option Nat) t => some (match a with
        | none => t
        | some u => Nat.min t u)) none).map fun t => ⟨8, t, 7⟩
  else if orig = .quiesced then
    (l.find? fun x =>
      x.typ = 0x10 || x.typ = 0x11 || x.typ = 0x22 || x.typ = (if epoch then 0x21 else 0x20) ||
        (x.typ = 1 && x.val.length = 1 &&
          (profArr (wordAt x.val 0) != cur.arr || (profRow (numAt x.val 0 0 3)).2.2.2.2.1 != cur.compat))).map fun x => ⟨8, x.typ, x.off⟩
  else none

/-- IMG_EDGE (R5, R168). -/
def edgeErr (edge : Bool) (l : List Sect) : Option LoadErr :=
  match sectOf l 0x70 with
  | some x => if bit (wordAt x.val 0) 0 && !edge then some ⟨9, 0x70, x.off + 2⟩ else none
  | none => none

/-- The windows in force stay in a load from QUIESCED (R165, R302). -/
def windowsErr (orig : SlState) (cur after : Cfg) (l : List Sect) (x : Sect) : Bool :=
  orig = .quiesced && (x.typ = 0x30 || (x.typ = 1 && (sectOf l 0x30).isNone)) && !keepsWindows cur.pin.windows after.pin.windows

/-- IMG_RANGE in one section: its VLEN, a field of it, or a window that an image from QUIESCED does not keep. -/
def sectRange (orig : SlState) (cur after : Cfg) (l : List Sect) (x : Sect) : Option LoadErr :=
  if (exactVlen x.typ).any (· != 4 * x.val.length) then some ⟨10, x.typ, x.off + 1⟩
  else match (List.range x.val.length).find? fun i => !wordOk x i with
    | some i => some ⟨10, x.typ, x.off + 2 + i⟩
    | none => if windowsErr orig cur after l x then some ⟨10, x.typ, x.off + 2⟩ else none

/-- The place of a failure over several fields: the first carried of these sections with the lowest word of it that takes part,
or the PROFILE value (R470). -/
def placeOf (code : Nat) (l : List Sect) (parts : List (Nat × Nat)) : LoadErr :=
  match parts.findSome? fun p => (sectOf l p.1).map fun x => (p.1, x.off + 2 + p.2) with
  | some (t, o) => ⟨code, t, o⟩
  | none => match sectOf l 1 with
    | some x => ⟨code, 1, x.off + 2⟩
    | none => ⟨code, 0, 0⟩

/-- IMG_FLOOR: more than 12 pinned ways, or a quota above the nominal pinned share (R168, R320). -/
def floorErr (c : Cfg) (l : List Sect) : Option LoadErr :=
  if c.arr.cairnw.toNat + c.arr.bufw.toNat > 12 then some (placeOf 11 l [(0x10, 2)])
  else match (List.range 16).find? fun i => (nth c.pin.quota i 0).toNat > pinShare c.arr c.arr.insvc with
    | some i => some (placeOf 11 l [(0x10, 0), (0x30, 2 + i)])
    | none => none

/-- IMG_OVERBOOK: the reservations of a port sum above 512 (R381). -/
def overbookErr (c : Cfg) (l : List Sect) : Option LoadErr :=
  let sum (p : Nat) : Nat := c.qos.cls.foldl (fun n q => if bit q.ports p then n + q.res.toNat else n) 0
  match (List.range 6).find? fun p => decide (sum p > 512) with
  | some p => some (placeOf 12 l [(0x50, 2 + 2 * (c.qos.cls.findIdx fun q => bit q.ports p))])
  | none => none

/-- An entry of a home map is allowed: reserved bits 0, and a bank in service where it names this slice (R310). -/
def entryOk (slice : Id12) (arr : ArrCfg) (w : Word) : Bool :=
  fld w 0 12 != slice || bit arr.insvc (fld w 12 4 : BitVec 4).toNat

/-- IMG_MAP for a map the image carries. -/
def mapErr (slice : Id12) (arr : ArrCfg) (x : Sect) : Option LoadErr :=
  if x.val.length != 4096 then some ⟨13, x.typ, x.off + 1⟩
  else match (List.range 4096).zip x.val |>.find? fun p => !(within p.2 0xFFFF && entryOk slice arr p.2) with
    | some p => some ⟨13, x.typ, x.off + 2 + p.1⟩
    | none => none

/-- IMG_MAP over the maps in force after the load (R310): those carried, then those kept. -/
def mapsErr (slice : Id12) (c : Cfg) (img : List Word) (l : List Sect) : Option LoadErr :=
  let one (typ : Nat) (m : List Word) : Option LoadErr :=
    match sectOf l typ with
    | some x => mapErr slice c.arr x
    | none => if partialImage img && !m.all (entryOk slice c.arr) then some ⟨13, typ, 0⟩ else none
  (one 0x20 c.mapA).orElse fun _ => one 0x21 c.mapB

/-- The first check that fails on the sections of an image, in the order of R168 after IMG_SECT. -/
def sectsErr (s : State) (img : List Word) (l : List Sect) : Option LoadErr :=
  let orig := s.ctl.lorig
  let c := cfgAfter s.cfg img l
  (partialErr orig s.cfg s.ctl.epoch img l).orElse fun _ =>
  (edgeErr s.ring.tieEdge l).orElse fun _ =>
  (l.findSome? (sectRange orig s.cfg c l)).orElse fun _ =>
  (floorErr c l).orElse fun _ =>
  (overbookErr c l).orElse fun _ => mapsErr s.ring.tieSlice c img l

/-- The checks of R168 on a received image: the first that fails, or what the image applies. -/
def State.checkImage (s : State) (img : List Word) : Except LoadErr Image :=
  match headerErr s.ring.tieItag img with
  | some e => .error e
  | none =>
    match sections img with
    | .error e => .error e
    | .ok l =>
      match sectsErr s img l with
      | some e => .error e
      | none => .ok { cfg := cfgAfter s.cfg img l
                      epoch := ((sectOf l 0x22).map fun x => bit (wordAt x.val 0) 0).getD s.ctl.epoch
                      gov := govAfter s.ctl.gov img l, prof := (sectOf l 1).map fun x => wordAt x.val 0, serial := wordAt img 9 }

end Sys2Proof.Machine
end

