-- ==== Sys2Proof/Machine/MemPort.lean ====
section
/-! DEFINITION. The memory port: which command it issues, its transfers, reads and writes that fail, and the placements and
misses that waited (02 R66 to R72, 04 R127 to R129, 06 R194, R200 to R208, 13 R471, 14 R403 and R404). -/
namespace Sys2Proof.Machine

/-! ### Offers of the two arbiters (R70, R387, R388, R471) -/

/-- A write of the line is in the write hold (R70). -/
def State.writing (s : State) (l : LineId) : Bool := s.mp.hold.any fun w => w.line = l

/-- The port issues commands: up, with nothing left from before a core reset (R129), and room in the command FIFO (R119). -/
def State.mayIssue (s : State) : Bool :=
  s.ring.mpUp && s.coreUp && s.mp.flushRd = [] && s.mp.flushWr = [] && s.mp.cmdFifo.length < 8

/-- Puts an offer behind those that became ready no later. -/
def putBy {α : Type} (ord : α → Nat) (a : α) : List α → List α
  | [] => [a]
  | b :: r => if ord b ≤ ord a then b :: putBy ord a r else a :: b :: r

/-- Offers by the time they became ready, the earliest first. -/
def earliest {α : Type} (ord : α → Nat) (l : List α) : List α := l.foldl (fun a x => putBy ord x a) []

/-- Read commands that are ready, the earliest first. -/
def State.readOffers (s : State) : List (Nat × Miss) :=
  earliest (fun p => p.2.ord) (s.mp.miss.filter fun p => p.2.st = .alloc && !s.writing p.2.line)

/-- Write commands that are ready: no earlier write of the line is outstanding, and the data FIFO has room (R70, R471). -/
def State.writeOffers (s : State) : List Wr :=
  if s.mp.wdFifo.length ≥ 8 then []
  else earliest (fun w => w.rdy) (s.mp.hold.filter fun w =>
    w.st = .ready && !s.mp.hold.any fun v => v.line = w.line && v.tag != w.tag && (v.st != .ready || v.ord < w.ord))

/-- Writes to be reissued before any other command, in the order of their first issue; those never issued follow (R128). -/
def State.againOffers (s : State) : List Wr :=
  earliest (fun w => w.iss.getD (s.mp.ord + w.ord)) (s.mp.hold.filter fun w => w.again)

/-- Another write of the line is outstanding (R70). -/
def State.outstanding (s : State) (w : Wr) : Bool := s.mp.hold.any fun v => v.line = w.line && v.tag != w.tag && v.st != .ready

/-- The arbiter's offer of a list at port `p`, with whether rule 1 of R388 chose it. -/
def State.offer {α : Type} (s : State) (p : Nat) (cls : α → BitVec 4) (l : List α) : Option (α × Bool) :=
  (s.arbitrate p (l.map cls)).bind fun x => (l[x.1]?).map fun a => (a, x.2)

/-- What the command channel takes (R471). -/
inductive Pick where
  | read (t : Nat) (m : Miss) (res : Bool)
  | write (w : Wr) (res : Bool)
  | none

def State.pick (s : State) : Pick :=
  if !s.mayIssue then .none
  else match s.againOffers with
    | w :: _ => if s.mp.wdFifo.length < 8 && !s.outstanding w then .write w false else .none
    | [] =>
      match s.offer 3 (fun p => p.2.cls) s.readOffers, s.offer 4 (fun w => w.cls) s.writeOffers with
      | none, none => .none
      | some ((t, m), r), none => .read t m r
      | none, some (w, r) => .write w r
      | some ((t, m), r), some (w, q) =>
        if s.prio m.cls > s.prio w.cls then .read t m r
        else if s.prio w.cls > s.prio m.cls then .write w q
        else if w.rdy < m.ord then .write w q else .read t m r

/-- A read command enters the command FIFO (R202). -/
def State.issueRead (s : State) (t : Nat) (m : Miss) (res : Bool) : State :=
  { (s.pay 3 m.cls 1 res) with mp.miss := tabPut s.mp.miss t { m with st := .issued }
                               mp.cmdFifo := s.mp.cmdFifo ++ [(⟨false, m.line.ln, BitVec.ofNat 8 t, m.cls⟩ : MCmd)] }.ev 16

/-- Changes the held write of a tag. -/
def State.modWr (s : State) (t : Nat) (f : Wr → Wr) : State :=
  { s with mp.hold := s.mp.hold.map fun w => if w.tag = t then f w else w }

/-- A write command and its data enter their FIFOs (R471). Data that fails on the way goes on with POIS 1 (R401). -/
def State.issueWrite (s : State) (w : Wr) (res : Bool) : State :=
  let n := s.mp.ord
  let (s, x) := s.busMeet .memWrite (fun _ => some w.line) w.cls.toNat 0
  let s := ((s.pay 4 w.cls 1 res).evk 23 0 (num w.again)).modWr w.tag fun v =>
    { v with st := .fifo, wdSent := false, iss := some (v.iss.getD n), again := false, pois := v.pois || x != 0 }
  { s with mp.ord := n + 1, mp.wdFifo := s.mp.wdFifo ++ [w.tag]
           mp.cmdFifo := s.mp.cmdFifo ++ [(⟨true, w.line.ln, BitVec.ofNat 8 w.tag, w.cls⟩ : MCmd)] }.ev 17

/-- MISS_ISSUE (R70, R202): the miss register with this read tag wins the command channel. -/
def execMissIssue (tag : Byte) (s : State) : Host.Outcome State Fault Refusal :=
  match s.pick with
  | .read t m r => s.when (t = tag.toNat) (s.issueRead t m r)
  | _ => .next s

/-- The choice of the memory command channel, when it is one of port `p` (R471). -/
def State.grantMem (s : State) (p : Nat) : Option State :=
  match s.pick with
  | .read t m r => if p = 3 then some (s.issueRead t m r) else none
  | .write w r => if p = 4 then some (s.issueWrite w r) else none
  | .none => none

/-! ### Transfers (R68, R69) -/

/-- MEM_CMD_TRANSFER (R68), after the command's stall cycles (R120). -/
def State.cmdTransfer (s : State) : State :=
  match s.mp.cmdFifo with
  | [] => s
  | c :: r =>
    let s := { s with mp.cmdFifo := r }
    if c.write then s.modWr c.tag.toNat fun w => { w with st := .sent } else s

def execMemCmdTransfer (s : State) : Host.Outcome State Fault Refusal :=
  s.when (s.ring.mpUp && !s.mp.cmdFifo.isEmpty) (s.stalled 20).cmdTransfer

/-- The held write of a tag. -/
def State.wrOf (s : State) (t : Nat) : Option Wr := s.mp.hold.find? fun w => w.tag = t

/-- The write-data beat at the front has its command transferred (R69). -/
def State.beatReady (s : State) : Bool :=
  match s.mp.flushWd, s.mp.wdFifo with
  | _ :: _, _ => true
  | [], t :: _ => (s.wrOf t).any fun w => w.st = .sent
  | [], [] => false

/-- MEM_WRITE_DATA_TRANSFER (R69, R72, R129). -/
def State.beatTransfer (s : State) : State :=
  match s.mp.flushWd, s.mp.wdFifo with
  | _ :: r, _ => { s with mp.flushWd := r }
  | [], t :: r =>
    let s := match s.wrOf t with
      | some w => s.charge 10 w.cls 1
      | none => s
    { s with mp.wdFifo := r }.modWr t fun w => { w with wdSent := true }
  | [], [] => s

def execMemWriteDataTransfer (s : State) : Host.Outcome State Fault Refusal :=
  s.when (s.ring.mpUp && s.beatReady) (s.stalled 21).beatTransfer

/-! ### Output pins (R66) -/

/-- The output pins of the port. While a channel's VLD is low its other pins are 0 (DESIGN CHOICE: log 86). -/
structure MemPins where
  cmdVld  : Bool
  cmdOp   : BitVec 2
  cmdAddr : BitVec 45
  cmdTag  : Byte
  cmdCls  : BitVec 4
  cmdPar  : BitVec 2
  wdVld   : Bool
  wdTag   : BitVec 6
  wdData  : Line
  wdMask  : BitVec 128
  wdPois  : Bool
  wdCrv   : Bool
  wdCrust : Word
  wdPar   : BitVec 38
  rdRdy   : Bool
  deriving DecidableEq, Repr

/-- SL_MP_CMD_PAR: parity of ADDR[31:0], and of OP, TAG, CLS and ADDR[44:32]. -/
def MCmd.par (c : MCmd) : BitVec 2 :=
  putBit (putBit 0 0 (parity (fld c.addr 0 32))) 1
    (parity (pack 27 [(0, num c.write), (2, c.tag.toNat), (10, c.cls.toNat), (14, (fld c.addr 32 13).toNat)]))

/-- SL_MP_WD_PAR: parity of the 32 data words, the 4 mask words, the crust, and TAG, POIS and CRV. -/
def wdPar (tag : BitVec 6) (d : Line) (mask : BitVec 128) (pois : Bool) (c : Word) : BitVec 38 :=
  let p := (List.range 32).foldl (fun (p : BitVec 38) i => putBit p i (parity (lineWord d i))) 0
  let p := (List.range 4).foldl (fun (p : BitVec 38) i => putBit p (32 + i) (parity (fld mask (32 * i) 32))) p
  putBit (putBit p 36 (parity c)) 37 (parity (pack 8 [(0, 1), (1, num pois), (2, tag.toNat)]))

/-- The write-data beat whose VLD is high: tag, line, poison, crust (R69, R129). -/
def State.wdBeat (s : State) : Option (BitVec 6 × (Line × (Bool × Word))) :=
  if !s.ring.mpUp || !s.beatReady then none
  else match s.mp.flushWd, s.mp.wdFifo with
    | (t, x) :: _, _ => some (BitVec.ofNat 6 t, x)
    | [], t :: _ => (s.wrOf t).map fun w => (BitVec.ofNat 6 t, w.data, w.pois, w.crust)
    | [], [] => none

/-- SL_MP_RD_RDY: the read-data FIFO has room (R66, R119). The core takes beats out of it whether or not it may use them yet, so that it is
never full (R68). -/
def State.rdRdy (s : State) : Bool := s.ring.mpUp

/-- What the port drives: the command at the front of its FIFO, the write-data beat that may go, and SL_MP_RD_RDY. -/
def State.memPins (s : State) : MemPins :=
  let c := if s.ring.mpUp then s.mp.cmdFifo.head? else none
  let w := s.wdBeat
  { cmdVld := c.isSome, cmdOp := BitVec.ofNat 2 (num (c.any fun c => c.write)), cmdAddr := (c.map fun c => c.addr).getD 0
    cmdTag := (c.map fun c => c.tag).getD 0, cmdCls := (c.map fun c => c.cls).getD 0, cmdPar := (c.map MCmd.par).getD 0
    wdVld := w.isSome, wdTag := (w.map fun w => w.1).getD 0, wdData := (w.map fun w => w.2.1).getD 0
    wdMask := if w.isSome then BitVec.allOnes 128 else 0, wdPois := w.any fun w => w.2.2.1, wdCrv := w.isSome
    wdCrust := (w.map fun w => w.2.2.2).getD 0
    wdPar := (w.map fun w => wdPar w.1 w.2.1 (BitVec.allOnes 128) w.2.2.1 w.2.2.2).getD 0
    rdRdy := s.rdRdy }

/-! ### Read data (R202, R403) -/

/-- The command of a read tag has transferred and its beat has not. -/
def State.awaits (s : State) (t : Nat) : Bool :=
  ((tabGet s.mp.miss t).any fun m => m.st = .issued) && !(s.mp.cmdFifo.any fun c => !c.write && c.tag.toNat = t) &&
    !(s.mp.rdWait ++ s.mp.rdFifo).any fun b => b.tag.toNat = t

/-- Line data has come for the miss register of a tag: its entry goes on. -/
def State.fill (s : State) (t : Nat) (m : Miss) (d : Line) (p : Bool) : State :=
  let s := { s with mp.miss := tabPut s.mp.miss t { m with st := .fill } }
  match tabGet s.home.ht m.ent with
  | some h => s.advance m.ent { h with data := some (d, p) } .ok
  | none => s

/-- A read that failed is issued again, at most 4 times; then its line is zeros with poison (R403). -/
def State.readAgain (s : State) (t : Nat) (m : Miss) : State :=
  if m.reissue < 4 then
    { s with mp.miss := tabPut s.mp.miss t { m with st := .alloc, reissue := m.reissue + 1, ord := s.mp.ord }
             mp.ord := s.mp.ord + 1, chk.replay := satAdd s.chk.replay 1 }.ev 24
  else
    ((s.chkErr 1).scree { kind := 0x21, sev := 2, line := some m.line, unit := 8, cls := m.cls.toNat, cnt := 4, detail := t }).fill t
      m 0 true

/-- Parity of a read-data beat (R66): 32 data words, the crust, and TAG, POIS, CRV. -/
def beatPar (tag : Byte) (d : Line) (pois crv : Bool) (c : Word) : BitVec 34 :=
  let p := (List.range 32).foldl (fun (p : BitVec 34) i => putBit p i (parity (lineWord d i))) 0
  putBit (putBit p 32 (parity c)) 33 (parity (pack 10 [(0, num crv), (1, num pois), (2, tag.toNat)]))

/-- Words of a beat that fail parity; bit 33 stands for TAG, POIS and CRV. -/
def RdBeat.bad (x : RdBeat) : BitVec 34 := x.par ^^^ beatPar x.tag x.data x.pois x.crv x.crust

/-- A read-data beat leaves the crossing: checked for parity, poison and crust, then placed or read again (R72, R205, R403). A beat that the
core's side of the FIFO cannot read is read from memory again (R207, R401). -/
def State.beatIn (s : State) (x : RdBeat) : State :=
  let t := x.tag.toNat
  match tabGet s.mp.miss t with
    | none => s
    | some m =>
      let s := (s.charge 10 m.cls 1).evk 26 0 (num x.crv)
      let (s, w) := s.busMeet .memRead (fun _ => none) m.cls.toNat 0
      if w != 0 || x.bad != 0 || (x.crv && crust m.line x.data != x.crust) then s.readAgain t m else s.fill t m x.data x.pois

/-- The beats that waited for starts to resume are used, the earliest first. -/
def State.drainRd (s : State) : State :=
  (s.mp.rdWait ++ s.mp.rdFifo).foldl State.beatIn { s with mp.rdWait := [], mp.rdFifo := [] }

/-- A beat enters the read-data FIFO; when that holds 8 the core takes the oldest out to wait (R68, R119). -/
def State.rdQueue (s : State) (x : RdBeat) : State :=
  if s.mp.rdFifo.length < 8 then { s with mp.rdFifo := s.mp.rdFifo ++ [x] }
  else { s with mp.rdWait := s.mp.rdWait ++ s.mp.rdFifo.take 1, mp.rdFifo := s.mp.rdFifo.drop 1 ++ [x] }

/-- A beat transfers (R68). One whose tag fails parity is discarded, counted and flagged (R403); one whose tag was issued before a core reset is
discarded (R129); one whose tag no read awaits has no place to go and has no effect (log 110). The bank uses the others at once, or once
starts resume (R441). -/
def State.beatOver (s : State) (x : RdBeat) : State :=
  let s := s.ev 18
  if bit x.bad 33 then { (if s.coreUp then s.chkErr 3 else s) with mp.badTags := s.mp.badTags + 1 }
  else if s.mp.flushRd.contains x.tag.toNat then { s with mp.flushRd := s.mp.flushRd.erase x.tag.toNat }
  else if !s.awaits x.tag.toNat then s
  else if !s.mayStart then s.rdQueue x
  else s.beatIn x

/-- MEM_READ_DATA. -/
def execMemReadData (tag : Byte) (data : Line) (pois crv : Bool) (crust_ : Word) (par : BitVec 34) (s : State) :
    Host.Outcome State Fault Refusal :=
  s.when s.rdRdy (s.beatOver ⟨tag, data, pois, crv, crust_, par⟩)

/-- MEM_READ_TIMEOUT (R403): the reissue counts as one of its 4. -/
def execMemReadTimeout (tag : Byte) (s : State) : Host.Outcome State Fault Refusal :=
  match tabGet s.mp.miss tag.toNat with
  | some m => s.when (s.ring.mpUp && s.awaits tag.toNat) (s.readAgain tag.toNat m)
  | none => .next s

/-! ### Write completions (R404) -/

/-- A pin or unpin walk that has visited every frame ends; an unpin walk once its writes have completed too (R298, R300). -/
def State.pinWalkEnd (s : State) : State :=
  match s.pin.walk with
  | none => s
  | some w =>
    if w.pos.any (· < 12288) || (w.unpin && s.mp.hold.any fun v => v.cause = .unpin) then s
    else
      let s := { s with pin.walk := none }
      (if w.quota || (w.row = 6 && w.left != 0) then s.pinErr 0 else s).answer w.r 0

/-- No write of the line before these is outstanding any more: the next write of the line is ready from now on, or the read that waited for them
(R70, R388). -/
def State.unblock (s : State) (l : LineId) : State :=
  let n := s.mp.ord
  match earliest (fun w => w.ord) (s.mp.hold.filter fun w => w.line = l) with
  | w :: _ => { (s.modWr w.tag fun v => { v with rdy := n }) with mp.ord := n + 1 }
  | [] => { s with mp.ord := n + 1
                   mp.miss := s.mp.miss.map fun p => if p.2.line = l && p.2.st = .alloc then (p.1, { p.2 with ord := n }) else p }

/-- A write tag is free again: whoever waits for its completion knows, and whether the write failed for good (R69, R291). -/
def State.tagDone (s : State) (t : Nat) (pois : Bool) : State :=
  { s with
    home.ht := s.home.ht.map fun e =>
      if e.2.tags.contains t then (e.1, { e.2 with tags := e.2.tags.filter (· != t), wbad := e.2.wbad || pois }) else e
    home.invs := s.home.invs.map fun j =>
      if j.tags.contains t then { j with tags := j.tags.filter (· != t), pois := j.pois || pois } else j
    home.dig := s.home.dig.map fun (j : DigJob) =>
      if j.tags.contains t then { j with tags := j.tags.filter (· != t), pois := j.pois || pois } else j
    knd.scans := s.knd.scans.map fun j =>
      if j.tags.contains t then { j with tags := j.tags.filter (· != t), pois := j.pois || pois } else j }

/-- Entries whose work is done and whose writes have all completed close (R236). -/
def State.closeTw (s : State) : State :=
  s.home.ht.foldl (fun s e =>
    match tabGet s.home.ht e.1 with
    | some h => if h.tw && h.tags = [] then s.advance e.1 h .ok else s
    | none => s) s

/-- A held write is released: the completions that waited for it are sent, and the entries that waited for it close (R236, R264, R291). -/
def State.release (s : State) (w : Wr) (pois : Bool) : State :=
  let s := (({ s with mp.hold := s.mp.hold.filter fun v => v.tag != w.tag }.unblock w.line).tagDone w.tag pois)
  (w.comps.foldl (fun (s : State) (c : Comp) => s.complete (c.spoiled pois)) s).closeTw.pinWalkEnd.invFinish.digFinish

/-- A held write goes out again, before later writes of its line (R70, R404). -/
def State.writeAgain (s : State) (w : Wr) (e : Nat) : State :=
  let n := s.mp.ord
  { (s.modWr w.tag fun v => { v with st := .ready, wdSent := false, errs := e, rdy := n }) with
    mp.ord := n + 1, chk.replay := satAdd s.chk.replay 1 }.ev 25

/-- A completion is due for a tag: its write-data beat has transferred. -/
def State.complDue (s : State) (t : Nat) : Bool := (s.wrOf t).any fun w => w.st = .sent && w.wdSent

/-- A write completion (R69, R129, R404); one for a tag that awaits none has no effect (log 110). -/
def State.complIn (s : State) (tag : BitVec 6) (err par : Bool) : State :=
  let t := tag.toNat
  if parity (pack 7 [(0, num err), (1, t)]) != par then
    { (if s.coreUp then s.chkErr 3 else s) with mp.badTags := s.mp.badTags + 1 }
  else if s.mp.flushWr.contains t then { s with mp.flushWr := s.mp.flushWr.erase t }
  else if !s.complDue t then s
  else match s.wrOf t with
    | none => s
    | some w =>
      let s := s.ev 19
      if !err then s.release w false
      else if w.errs < 4 then s.writeAgain w (w.errs + 1)
      else
        ((s.chkErr 2).scree { kind := 0x22, sev := 2, line := some w.line, unit := 8, cls := w.cls.toNat, cnt := 4
                              detail := t }).release w true

/-- MEM_WRITE_COMPLETION. -/
def execMemWriteCompletion (tag : BitVec 6) (err : Bool) (par : Bool) (s : State) : Host.Outcome State Fault Refusal :=
  s.when s.ring.mpUp (s.complIn tag err par)

/-- MEM_WRITE_TIMEOUT (R404). -/
def execMemWriteTimeout (tag : BitVec 6) (s : State) : Host.Outcome State Fault Refusal :=
  match s.wrOf tag.toNat with
  | some w => s.when (s.ring.mpUp && w.st = .sent && w.wdSent) (s.writeAgain w w.errs)
  | none => .next s

/-! ### What waited -/

/-- The entry waits for something that may be free by now: a placement, a line-buffer entry, a loaf lock, a snoop-filter entry, the
bank, or entries of the ejection queues (R190, R194, R221, R225, R325). -/
def State.resumable (s : State) (h : Ht) : Bool :=
  h.vic.isSome || h.lbw || h.pw || h.lk || h.bw || h.sfw || h.sw || (h.data.isSome && !h.pending) || (h.st = .binv && h.why = .epoch && !h.pending) ||
    (h.st = .wb && match h.why with
      | .req r => s.payReady r || (s.released r).isSome
      | _ => false)

/-- PLACEMENT_RESUME (R194). -/
def execPlacementResume (e : BitVec 9) (s : State) : Host.Outcome State Fault Refusal := s.starting <|
  match tabGet s.home.ht e.toNat with
  | some h => s.when (s.resumable h) (s.advance e.toNat h .ok)
  | none => .next s

/-- MISS_REGISTER_RETRY (R204): the tag lookup is repeated, by the entry that its bank serves first (R385). -/
def execMissRegisterRetry (e : BitVec 9) (s : State) : Host.Outcome State Fault Refusal := s.starting <|
  match tabGet s.home.ht e.toNat with
  | some h => s.when (s.retryable h && s.bankFree (s.bankOf h.line) (s.htRank h).1 (s.htRank h).2) ((s.lookup h.line (s.htClass h)).advance e.toNat h .ok)
  | none => .next s

/-- CORRECTED_REWRITE (R207, R208): the oldest corrected word of the bank that waits is written back; the contents of the frame
are the corrected ones already. One 64-byte write of the array, internal work (R379, R390, R446). -/
def execCorrectedRewrite (bank : BitVec 4) (s : State) : Host.Outcome State Fault Refusal := s.starting <|
  match s.arr.rewrite.find? fun p => keyBank p.1 = bank.toNat with
  | some p => s.did ((({ s with arr.rewrite := s.arr.rewrite.erase p }.start (keyBank p.1 / 4)).charge 2 s.iclass 1).evk 63 0 1)
  | none => .next s

end Sys2Proof.Machine
end

