-- ==== Sys2Proof/Machine/Station.lean ====
section
/-! DEFINITION. The ring station and the near ports as receivers, the front end, and the grants of the port arbiters (02 R37 to R65,
R472 to R474, R478, 05 R142 to R144, 13 R387 and R388, 14 R401 and R402). -/
namespace Sys2Proof.Machine

/-! ### Requests (R43) -/

/-- The request a REQ flit carries, from its source. -/
def reqOf (f : Flit) (src : Src) : Req :=
  let b (i w : Nat) : BitVec w := fld f (128 + i) w
  let t (i : Nat) : Bool := bit f (128 + i)
  { name := flitName f, src, opc := b 0 5, space := t 5, cls := b 6 4, scope := b 10 3, vol := t 13, rel := t 14, acq := t 15
    luse := t 16, stepm := t 17, ext := t 18, land := t 19, lfin := t 20, lgrp := b 21 6, plen := b 27 4, crv := t 31
    addr := b 32 52, crust := b 84 32, esrc := b 116 26, lcnt := b 142 32, kop := b 174 8, kfmt := b 182 4, len := b 186 32
    mask := b 256 128, since := 0, full := false }

/-- A request of this name that has not been answered, wherever it waits. -/
def State.known (s : State) (n : TxName) : Option Req :=
  (s.home.q.find? fun r => r.name = n).orElse fun _ =>
    (s.home.ht.findSome? fun e => match e.2.why with
      | .req r => if r.name = n then some r else none
      | _ => none).orElse fun _ =>
        sources.findSome? fun x => ((s.rx x).req.map fun q => reqOf q.f x).find? fun r => r.name = n

/-- The CLASS field of a REQ flit (R43). -/
def reqCls (f : Flit) : BitVec 4 := fld f 134 4

/-- The class a received flit is charged to (R379, R446): that of its request, of the landing tallies, of the entry it answers, or ICLASS. -/
def State.flitClass (s : State) (f : Flit) : BitVec 4 :=
  let n := flitName f
  if flitVc f = 0 then reqCls f
  else if n.sty && n.src = s.ring.tieSlice && n.txn.toNat ≥ 0xE00 then fld s.land.landcfg 12 4
  else match s.known (flitName f) with
    | some r => r.cls
    | none => ((tabGet s.home.ht (flitName f).txn.toNat).map s.htClass).getD s.iclass

/-! ### Which flits a transaction waits for (R59) -/

/-- Response codes of completions (R233). -/
def isComp (f : Flit) : Bool := (rspType f).toNat < 8

/-- A tally read is outstanding, also one whose entry was freed (R284, R285). -/
def Land.readOpen (e : Land) : Bool := e.stale || e.tally = .reading

/-- The tally request of this TXN has not been answered (R282, R284). -/
def State.tallyOpen (s : State) (t : Nat) : Bool :=
  (0xE00 ≤ t && t < 0xE40 && (s.landAt (t - 0xE00)).add.isSome) ||
    (0xE40 ≤ t && t < 0xE80 && ((s.landAt (t - 0xE40)).readOpen || (s.landAt (t - 0xE40)).tally = .subbing))

/-- A transaction is open for a response: a tally request or a move of this slice, or a snoop of an open entry. -/
def State.rspOpen (s : State) (f : Flit) : Bool :=
  let n := flitName f
  let t := n.txn.toNat
  if isComp f then
    n.sty && n.src = s.ring.tieSlice &&
      (s.tallyOpen t || (tabGet s.home.ht t).any fun h => h.st = .move)
  else (tabGet s.home.ht t).isSome

/-- A transaction is open for line data: a snoop of an open entry, or a tally read. -/
def State.datOpen (s : State) (f : Flit) : Bool :=
  let t := (flitName f).txn.toNat
  s.isLineData f &&
    ((tabGet s.home.ht t).isSome || (0xE40 ≤ t && t < 0xE80 && (s.landAt (t - 0xE40)).readOpen))

/-- The line data comes from a declared owner (R257). -/
def State.datDead (s : State) (f : Flit) : Bool :=
  (tabGet s.home.ht (flitName f).txn.toNat).any fun h => (h.own.map fun a => s.isDead a).getD false

/-! ### Reception (R37, R58, R59, R402) -/

/-- What a receive side does with a flit for this slice. -/
inductive Taken where
  | kept (s : State)
  | declined

/-- A flit with a bad header word (R402, R472). -/
def State.badHeader (s : State) (unit : Nat) (bad : FlitPar) : State :=
  if s.coreUp then (s.parExh.chkErr 0).scree { kind := 0x20, sev := 1, unit, detail := bad.toNat } else s

/-- DAT entries of the ring station that are free and unreserved (R58, R221). -/
def State.datFree (s : State) : Nat := 64 - s.datUsed 512

/-- Opcode and PAYLEN of a REQ flit (R43). -/
def reqOpc (f : Flit) : BitVec 5 := fld f 128 5
def reqPlen (f : Flit) : Nat := (fld f 155 4).toNat
def isKnead (f : Flit) : Bool := reqOpc f = 8 || reqOpc f = 9

/-- Knead requests that wait with their payload in the ring station: at most 32 (R347). -/
def State.kneadWaiting (s : State) : Nat :=
  (s.port.rx.req.filter fun q => isKnead q.f).length + (s.home.q.filter fun r => r.src = .ring && (r.opc = 8 || r.opc = 9)).length

/-- Room for a REQ flit at the ring station (R58, R347). -/
def State.reqRoom (s : State) (f : Flit) : Bool :=
  let free := 32 - s.port.rx.req.length
  (if flitBnc f < 3 then decide (free > 4) else decide (free > 0)) && reqPlen f ≤ s.datFree &&
    (!isKnead f || decide (s.kneadWaiting < 32))

/-- A flit is put in a queue of a receive side. PIN and UNPIN requests keep their order of arrival at all sources (R298). -/
def State.enqueue (s : State) (x : Src) (f : Flit) (bad : Bool) : State :=
  let s := if flitVc f = 0 && (reqOpc f = 13 || reqOpc f = 14) then { s with pin.order := s.pin.order ++ [flitName f] } else s
  let q : QFlit := ⟨f, bad⟩
  let r := s.rx x
  let left := if s.isLineData f then r.resv else txSet r.resv (flitName f) (txCount r.resv (flitName f) - 1)
  s.setRx x (match flitVc f with
    | 0 => { r with req := r.req ++ [q], resv := txSet r.resv (flitName f) (reqPlen f) }
    | 1 => { r with snp := r.snp ++ [q] }
    | 2 => { r with rsp := r.rsp ++ [q] }
    | _ => { r with dat := r.dat ++ [q], resv := left })

/-- A response that arrives (R59, R257, R402); one of a reserved type is no answer that an open snoop can get (R233, R241). -/
def State.takeRsp (s : State) (x : Src) (f : Flit) (bad : FlitPar) : State :=
  if (fld bad 2 4 : BitVec 4) != 0 then s.owe x 2 1
  else if (rspType f).toNat > 16 then
    (if (tabGet s.home.ht (flitName f).txn.toNat).isSome then s.ownmis f else s.stray f).owe x 2 1
  else if !isComp f && rspType f != 0x10 && s.deadReq (flitName f) then s.deadMsg.owe x 2 1
  else if s.rspOpen f then s.enqueue x f false
  else (s.stray f).owe x 2 1

/-- A data flit that arrives; a payload flit without a reserved entry is declined on the ring (R58, R59, R257, R478). -/
def State.takeDat (s : State) (x : Src) (f : Flit) (bad : FlitPar) : Taken :=
  let n := flitName f
  let r := s.rx x
  if s.isLineData f then
    if s.datDead f then .kept (s.deadMsg.owe x 3 1)
    else if s.datOpen f then .kept (s.enqueue x f (bad != 0))
    else .kept ((s.stray f).owe x 3 1)
  else if txCount r.resv n > 0 then .kept (s.enqueue x f (bad != 0))
  else if txCount r.late n > 0 then
    .kept (((s.setRx x { r with late := txSet r.late n (txCount r.late n - 1) }).stray f).owe x 3 1)
  else if txCount r.drop n > 0 then .kept ((s.setRx x { r with drop := txSet r.drop n (txCount r.drop n - 1) }).owe x 3 1)
  else if x = .ring && 1 ≤ (flitDkind f).toNat && (flitDkind f).toNat ≤ 3 then .declined
  else .kept ((s.stray f).owe x 3 1)

/-- DAT entries that payload still to come has reserved in FENCED. -/
def Rx.fencedDat (x : Rx) : Nat := x.drop.foldl (fun a c => a + c.n) 0

/-- In FENCED the ring station answers a REQ with ERR_NOTRUN and discards its payload, both accepted under R58; other flits are
dropped and counted (R144). -/
def State.fencedTake (s : State) (f : Flit) : Taken :=
  let n := flitName f
  let rx := s.port.rx
  if flitVc f = 0 then
    if rx.fencedDat + reqPlen f ≤ 64 then
      .kept ({ s with port.rx.drop := txSet rx.drop n (reqPlen f) }.relayRing (reqCls f) none
        [rspFlit n.sty n.src n 0 2 false 0 0 false 0 0])
    else .declined
  else if isPayload f then
    if txCount rx.drop n > 0 then .kept { s with port.rx.drop := txSet rx.drop n (txCount rx.drop n - 1) } else .declined
  else .kept { s with port.dropped := s.port.dropped + 1 }

/-- A flit addressed to this slice at the ring station (R56 to R59, R402). -/
def State.eject (s : State) (f : Flit) (bad : FlitPar) : Taken :=
  if !s.coreUp then s.fencedTake f
  else
    let t := s.charge 8 (s.flitClass f) 1
    match flitVc f with
    | 0 => if s.reqRoom f then .kept ((t.ev 0).enqueue .ring f (bad != 0)) else .declined
    | 1 => .kept (if bad != 0 then t else t.stray f)
    | 2 => .kept (t.takeRsp .ring f bad)
    | _ => match t.takeDat .ring f bad with
      | .kept t => .kept t
      | .declined => .declined

/-! ### Through flits and the saddle (R55, R60, R106) -/

/-- The die a flit is bound for (R106). -/
def State.dieFor (s : State) (f : Flit) : Nat :=
  if flitDtyp f then (nth s.lnk.cfg.dies ((flitDst f).toNat / 8) 0).toNat / 2 ^ (4 * ((flitDst f).toNat % 8)) % 16
  else (fld f 11 4).toNat

/-- An edge slice ejects the flit into its saddle transmit queue (R106). -/
def State.saddleBound (s : State) (f : Flit) : Bool :=
  s.ring.tieEdge && !flitBcast f && bit (fld s.lnk.cfg.fwd 0 16 : BitVec 16) (s.dieFor f)

/-- The flit enters the saddle transmit queue of its channel with what its parity check found, or is declined when that is full
(R87, R106). -/
def State.toSaddle (s : State) (f : Flit) (bad : FlitPar) : Taken :=
  let vc := flitVc f
  let cls := if vc = 0 then reqCls f else s.iclass
  if ((s.lnk.sel ++ s.lnk.tx).filter fun x => flitVc x.f = vc).length < 64 then
    .kept ({ s with lnk.tx := s.lnk.tx ++ [(⟨f, cls, false, false, bad, s.ring.powcyc⟩ : OutFlit)] }.charge 8 cls 1)
  else .declined

/-- A through flit on out-link `d` leaves with the parity it came with (R37, R55). An occupied insertion buffer gives up its flit and
takes this one; a flit that has waited 32 cycles has the buffer take it instead (R60). -/
def State.through55 (s : State) (d : Dir) (f : Flit) (par : FlitPar) (lat : List (BitVec 16)) : State :=
  let s := s.ev 2
  let l := s.link d
  match l.ins with
  | some g => (s.setLink d { l with ins := some f, insP := par, out := [g], par := [l.insP] }).charge 7 s.iclass 1
  | none =>
    if l.arm && l.inj.waiting then
      ((s.setLink d { l with ins := some f, insP := par, arm := false }).ev 4).injectTurn d lat 1
    else (s.setLink d { l with out := [f], par := [par] }).charge 7 s.iclass 1

/-- Parity of a declined flit: word 1, which holds BNC, is computed anew (R37, R58). -/
def bouncedPar (f : Flit) (par : FlitPar) : FlitPar := putBit par 1 (parity (fld (bounced f) 32 32))

/-- A broadcast this station injected returns after one revolution (R51, R229): the sweep of the home die is complete, or the
edge slice sends SNP_SWEPT. -/
def State.returned (s : State) (f : Flit) : Option State :=
  let n := flitName f
  let t := n.txn.toNat
  if flitVc f != 1 || !flitBcast f || !n.sty then none
  else if s.port.relayed.contains n then
    let s := { s with port.relayed := s.port.relayed.erase n }
    some ((s.relayRing s.iclass none [rspFlit true (fld f 210 12) ⟨true, s.ring.tieSlice, n.txn⟩ 0x10 0 false 0 0 false
      s.homeDie 0]).ev 39)
  else if n.src = s.ring.tieSlice then
    some (match tabGet s.home.ht t with
      | some h => if bit h.sweep s.homeDie && !h.sw then s.sweepDone t h s.homeDie else s
      | none => s)
  else none

/-- A flit with a word other than the header failing parity is counted (R402). -/
def State.countBad (s : State) (bad : FlitPar) : State :=
  { s with port.bad := s.port.bad + num (bad != 0 && !bit bad 0 && !bit bad 1) }

/-- A flit on an in-link (R55, R56, R58, R106, R402). -/
def State.arrive (s : State) (d : Dir) (f : Flit) (par : FlitPar) (lat : List (BitVec 16)) : State :=
  let bad := par ^^^ flitPar f
  let s := (s.setLink d { s.link d with out := [], par := [] }).countBad bad
  let pass (t : Taken) : State := match t with
    | .kept t => t
    | .declined => ((if s.coreUp then s.ev 1 else s).through55 d (bounced f) (bouncedPar f par) lat)
  if bit bad 0 || bit bad 1 then s.badHeader 9 bad
  else match s.returned f with
    | some t => t
    | none =>
      if flitDtyp f && flitDst f = s.ring.tieSlice && !flitBcast f then pass (s.eject f bad)
      else if s.saddleBound f then pass (s.toSaddle f bad)
      else s.through55 d f par lat

/-- RING_FLIT_ARRIVAL. -/
def execRingFlitArrival (d : Dir) (f : Flit) (par : FlitPar) (lat : List (BitVec 16)) (s : State) : Host.Outcome State Fault Refusal :=
  s.when (s.ctl.st != .off) (s.arrive d f par lat)

/-! ### Near ports (R62 to R65, R257, R472) -/

/-- One flit received on a near port. -/
def State.nearFlit (s : State) (n : Near) (f : Flit) (par : FlitPar) : State :=
  let bad := par ^^^ flitPar f
  let x := Src.near n
  if s.nearDead n then s.deadMsg
  else
    let s := ((s.charge 9 (s.flitClass f) 1).countBad bad).ev (match n with | .a => 6 | .b => 8)
    if bit bad 0 || bit bad 1 then
      let s := s.badHeader (match n with | .a => 10 | .b => 11) bad
      if bit bad 0 then s else s.owe x (flitVc f) 1
    else match flitVc f with
      | 0 => s.enqueue x f (bad != 0)
      | 1 => { s with home.err := setBit s.home.err 1 }.ev 10
      | 2 => s.takeRsp x f bad
      | _ => match s.takeDat x f bad with
        | .kept t => t
        | .declined => s

/-- Credits the slice returns in this ACK cycle: at most 2 per channel (R64). -/
def State.giveCredits (s : State) (n : Near) : State :=
  let p := s.near n
  let give (vc : Nat) : Nat := Nat.min 2 (nth p.owed vc 0)
  s.setNear n { p with owed := (List.range 4).map fun vc => nth p.owed vc 0 - give vc
                       crd := pack 8 ((List.range 4).map fun vc => (2 * vc, give vc)) }

/-- NEAR_PORT_RECEIVE (R64): the flits of one ACK cycle, and the credits returned in it. -/
def execNearPortReceive (n : Near) (fs : List (Flit × FlitPar)) (s : State) : Host.Outcome State Fault Refusal :=
  s.when s.coreUp ((fs.foldl (fun s x => s.nearFlit n x.1 x.2) s).giveCredits n)

/-! ### The front end (R142, R473, R474, R478) -/

/-- PAYLEN allowed for an opcode (R44). -/
def plenOk (opc : BitVec 5) (n : Nat) : Bool :=
  match opc.toNat with
  | 4 | 6 | 9 => n == 2
  | 8 => n == 1 || n == 2
  | 10 => 1 ≤ n
  | _ => n == 0

/-- A scalar ATOMIC is misaligned (R45). -/
def misaligned (r : Req) : Bool :=
  r.opc = 8 && r.op ≤ 10 &&
    (((r.kfmt = 2 || r.kfmt = 4) && r.addr.toNat % 4 != 0) || (r.kfmt = 3 && r.addr.toNat % 8 != 0))

/-- The line of a request is homed here, under the map that applies to it (R19, R316, R318). -/
def State.homed (s : State) (r : Req) : Bool :=
  if s.isMove r then (s.homeIn s.targetMap r.line).1 = s.ring.tieSlice
  else s.homesHere r.line ||
    ((r.opc = 4 || r.opc = 5) && (match s.cfg.prevMap with
      | some m => (s.homeIn m r.line).1 = s.ring.tieSlice
      | none => false))

/-- An eviction is served outside RUNNING (R143, R318). -/
def State.evictable (s : State) (r : Req) : Bool :=
  (r.opc = 4 || r.opc = 5) && s.homed r &&
    (s.ctl.st = .quiescing || s.ctl.st = .quiesced || s.drained || (s.ctl.st = .loading && s.ctl.lorig = .quiesced))

/-- Evictions wait at the front end during the apply phase of a load from QUIESCED (R143). -/
def State.applyWait (s : State) (r : Req) : Bool :=
  s.evictable r && s.ctl.st = .loading && s.ctl.lorig = .quiesced && s.ctl.phase = .applying

/-- The front end's checks in their order (R474): the code of the first that fails. A WRITE_UNIQUE of a slice is a move, which only
QUIESCED takes (R316). For WRITE_BACK and WRITE_UNIQUE the payload flits held so far are checked (R478). -/
def State.decodeCheck (s : State) (r : Req) : Option (BitVec 4) :=
  if (s.ctl.st != .running || (r.name.sty && r.opc = 6)) && !s.evictable r && !s.isMove r then some 2
  else if r.opc.toNat ≥ 15 then some 3
  else if r.ext && r.opc != 6 then some 4
  else if !plenOk r.opc r.plen.toNat || misaligned r || (r.opc = 10 && r.len != 0) ||
      (r.plen != 0 && payBad r (s.payload r)) then some 3
  else if r.opc.toNat ≤ 9 && !s.homed r then some 1
  else none

/-- A request that is decoded only once the PAYLEN flits of its payload are held, whatever its other fields say (R478). -/
def Req.waitsPay (r : Req) : Bool := r.opc = 8 || r.opc = 9 || r.opc = 10

/-- The queue a request would enter is full: 8 PIN and UNPIN, 8 accepted SCANs, 4 DIGESTs (R298, R376, R429). -/
def State.fullFor (s : State) (r : Req) : Bool :=
  match r.opc.toNat with
  | 10 => decide (s.knd.scans.length + s.home.scanQ.length ≥ 8)
  | 12 => decide (s.home.digQ.length ≥ 4)
  | 13 | 14 => decide (s.pin.q.length ≥ 8)
  | _ => false

/-- A PIN or UNPIN that arrived earlier has not been decoded (R298). -/
def State.pinBehind (s : State) (r : Req) : Bool := (r.opc = 13 || r.opc = 14) && (s.pin.order.head?).any (· != r.name)

/-- A request waits at the front end: for its payload, behind a full queue or an earlier PIN or UNPIN, or for the end of an apply
phase (R298, R473, R478). -/
def State.held (s : State) (q : QFlit) (r : Req) : Bool :=
  !q.bad &&
    (s.applyWait r || (s.ctl.st = .running &&
      ((r.waitsPay && !s.payReady r) ||
        (!r.ext && plenOk r.opc r.plen.toNat && (s.fullFor r || s.pinBehind r)))))

/-- The next request of a source that is not passed by: its position, flit and fields. -/
def State.nextReq (s : State) (x : Src) : Option (Nat × (QFlit × Req)) :=
  let l := (s.rx x).req
  (((List.range l.length).zip l).find? fun p => !s.held p.2 (reqOf p.2.f x)).map fun p => (p.1, p.2, reqOf p.2.f x)

/-- A decoded request reaches the unit that serves it (R473); the time at which it does is kept (R385). -/
def State.dispatch (s : State) (r : Req) : State :=
  let r := { r with since := s.ring.powcyc }
  match r.opc.toNat with
  | 10 => { s with home.scanQ := s.home.scanQ ++ [r] }
  | 11 => { s with home.invQ := s.home.invQ ++ [r] }
  | 12 => { s with home.digQ := s.home.digQ ++ [r] }
  | 13 | 14 => { s with pin.q := s.pin.q ++ [r] }
  | _ => { s with home.q := s.home.q ++ [r] }

/-- The front end takes a request (R142, R401, R402, R474). -/
def State.decode (s : State) (x : Src) (i : Nat) (q : QFlit) (r : Req) (bus : Nat) : State :=
  let s := { (s.setRx x { s.rx x with req := (s.rx x).req.eraseIdx i }).owe x 0 1 with pin.order := s.pin.order.erase r.name }
  let (s, lost) := s.busReplay bus
  if lost then
    let s := s.scree (parExhaust none r.cls.toNat r.name.src.toNat (busMask bus))
    if (bus - 5) % 4 != 0 then s.freePay r false else s.refuse r 3
  else if q.bad then s.refuse r 3
  else match s.decodeCheck r with
    | some code => s.refuse r code
    | none => s.dispatch r

/-- REQUEST_DECODE. -/
def execRequestDecode (src : Src) (bus : Nat) (s : State) : Host.Outcome State Fault Refusal :=
  match s.nextReq src with
  | some (i, q, r) => s.when s.coreUp (s.decode src i q r bus).wakeRoom
  | none => .next s

/-! ### Payload (R53, R478) -/

/-- The oldest payload flit in a source's DAT queue, by position. -/
def State.nextPay (s : State) (x : Src) : Option (Nat × QFlit) :=
  let l := (s.rx x).dat
  ((List.range l.length).zip l).find? fun p => !s.isLineData p.2.f

/-- A payload flit joins the others of its transaction. -/
def addPay (l : List Payload) (n : TxName) (p : PayFlit) : List Payload :=
  if l.any fun y => y.name = n then l.map fun y => if y.name = n then { y with flits := y.flits ++ [p] } else y
  else l ++ [⟨n, [p]⟩]

/-- A WRITE_BACK or WRITE_UNIQUE that waits for its turn ends with ERR_DECODE when a flit with a wrong DKIND or bad parity arrives
(R402, R478). A WRITE_BACK from OWN clears OV all the same (R224; log 88). -/
def State.payRefused (s : State) (r : Req) : State :=
  (if r.opc = 4 && s.fromOwner r then (s.dequeue r).sfDisown r.line else s.dequeue r).refuse r 3

/-- A payload flit enters its reserved entry; a request in HT_WB that waited for it, or one that it ends, goes on. A flit whose header fails on
the way from the queue is lost, and one of whose other words fail is as one that failed parity (R401, R402). -/
def State.payIn (s : State) (x : Src) (i : Nat) (q : QFlit) : State :=
  let n := flitName q.f
  let (s, w) := s.busMeet .payload (fun _ => none) (s.flitClass q.f).toNat n.src.toNat
  let left := (s.rx x).dat.eraseIdx i
  if w &&& 3 != 0 then (s.setRx x { s.rx x with dat := left }).owe x 3 1 else
  let p : PayFlit := { fidx := flitFidx q.f, data := fld q.f 128 512, pois := bit q.f 64, dkind := flitDkind q.f, bad := q.bad || w != 0 }
  let s := s.setRx x { s.rx x with dat := left, pay := addPay (s.rx x).pay n p }
  match s.home.ht.find? fun e => e.2.st = .wb && (match e.2.why with
      | .req r => r.name = n
      | _ => false) with
  | some (j, h) => s.advance j h .ok
  | none =>
    match s.home.q.find? fun r => r.name = n && (r.opc = 4 || r.opc = 6) with
    | some r => if (p.bad || p.dkind != dkindOf r.opc) && !s.deadReq n then (s.payRefused r).wakeRoom else s
    | none => s

/-- PAYLOAD_ARRIVAL. -/
def execPayloadArrival (src : Src) (s : State) : Host.Outcome State Fault Refusal :=
  match s.nextPay src with
  | some (i, q) => s.when s.coreUp (s.payIn src i q)
  | none => .next s

/-- The first request of a source that waits for its payload. -/
def State.payWaiter (s : State) (x : Src) : Option (Nat × Req) :=
  let l := (s.rx x).req
  (((List.range l.length).zip l).find? fun p =>
    let r := reqOf p.2.f x
    !p.2.bad && r.waitsPay && !s.payReady r).map fun p => (p.1, reqOf p.2.f x)

/-- The payload of a request has not come in time (R478). -/
def State.payExpire (s : State) (x : Src) (i : Nat) (r : Req) : State :=
  let s := (s.setRx x { s.rx x with req := (s.rx x).req.eraseIdx i }).owe x 0 1
  { (s.tobit 0) with home.tolast := pack 18 [(0, r.name.src.toNat), (12, 2)] }.freePay r true |>.answer r 9

/-- PAYLOAD_TIMEOUT. In any state but RUNNING the request is answered ERR_NOTRUN, which comes before every other code, and is not held back for its
payload (R142). -/
def execPayloadTimeout (src : Src) (s : State) : Host.Outcome State Fault Refusal :=
  match s.payWaiter src with
  | some (i, r) => s.when (s.ctl.st = .running) (s.payExpire src i r).wakeRoom
  | none => .next s

/-! ### Grants (R387, R388, R471) -/

/-- A flit of the request message of flit `f`: the REQ flit itself, or its payload. -/
def ofMsg (f : Flit) (d : OutFlit) : Bool := d.f = f || (isPayload d.f && flitName d.f = flitName f)

/-- REQ messages of the saddle transmit queue whose payload is there whole, the earliest ready first: a message is ready once its last flit has
come (R388). -/
def State.saddleReqs (s : State) : List (Nat × OutFlit) :=
  let all := (List.range s.lnk.tx.length).zip s.lnk.tx
  earliest (fun p => (all.filter fun d => ofMsg p.2.f d.2).foldl (fun a d => Nat.max a d.1) 0) (all.filter fun p =>
    flitVc p.2.f = 0 && (s.lnk.tx.filter fun d => isPayload d.f && flitName d.f = flitName p.2.f).length ≥ reqPlen p.2.f)

/-- The arbiter of port 5 chooses a request with its payload, which is framed next. -/
def State.grantSaddle (s : State) : Option State :=
  let l := s.saddleReqs
  (s.arbitrate 5 (l.map fun p => p.2.cls)).bind fun x => (l[x.1]?).map fun p =>
    let mine (d : OutFlit) : Bool := isPayload d.f && flitName d.f = flitName p.2.f
    let pay := (s.lnk.tx.filter mine).map fun d => { d with cls := p.2.cls }
    let s := s.pay 5 p.2.cls (1 + pay.length) x.2
    { s with lnk.sel := s.lnk.sel ++ p.2 :: pay, lnk.tx := (s.lnk.tx.eraseIdx p.1).filter fun d => !mine d }

/-- The ring port's arbiter makes its choice for out-link `d`: in each cycle at most one for east-out and then at most one for west-out, so
neither is passed over while a message is ready for it (R388). -/
def State.grantRing (s : State) (d : Dir) : Option State :=
  match d with
  | .east =>
    if s.readyAt 0 .east = [] || (s.port.eastMade && s.readyAt 0 .west != []) then none
    else some { s.grantMsg 0 .east with port.eastMade := true }
  | .west =>
    if s.readyAt 0 .west = [] || (!s.port.eastMade && s.readyAt 0 .east != []) then none
    else some { s.grantMsg 0 .west with port.eastMade := false }

/-- The choice of the arbiter of a port, if it can make one (R388). -/
def State.grant (s : State) (p : Nat) (d : Dir) : Option State :=
  if p = 0 then s.grantRing d
  else if p ≤ 2 then (if s.readyAt p d = [] then none else some (s.grantMsg p d))
  else if p ≤ 4 then s.grantMem p
  else if p = 5 then s.grantSaddle
  else none

/-- PORT_GRANT (R388). -/
def execPortGrant (p : BitVec 3) (d : Dir) (s : State) : Host.Outcome State Fault Refusal :=
  match s.grant p.toNat d with
  | some t => s.when (s.ctl.st != .off && (p = 0 || (if p = 5 then s.lnk.st = .up else s.coreUp))) t
  | none => .next s

end Sys2Proof.Machine
end

