-- ==== Sys2Proof/Machine/Landing.lean ====
section
/-! DEFINITION. Landing tallies (09 R280 to R287). -/
namespace Sys2Proof.Machine

/-- LCNT of a held final write, as a signed 64-bit value. -/
def Held.lcnt (h : Held) : Int := h.r.lcnt.toNat

/-- The tally is subtracted from (R284 step 4); a subtraction that cannot be sent now waits for the gap. -/
def State.tallySub (s : State) (g : Nat) (e : Land) : State :=
  let k := (e.held.map fun h => h.r.lcnt.toNat).getD 0
  if s.tallyRuns && s.roomFor false then
    ((s.setLand g { e with tally := .subbing }).tallySend g (0xE40 + g) (0 - BitVec.ofNat 64 k) false).ev 83
  else s.setLand g { e with tally := .subGap }

/-- The tally is read (R284 steps 2 and 3). -/
def State.tallyRead (s : State) (g : Nat) (e : Land) : State :=
  ((s.setLand g { e with tally := .reading }).tallySend g (0xE40 + g) 0 true).ev 82

/-- LANDING_FLUSH_TIMER (R282): the timer counts in every state of the core; an add it cannot send yet is kept. -/
def execLandingFlushTimer (g : BitVec 6) (s : State) : Host.Outcome State Fault Refusal :=
  let e := s.landAt g.toNat
  let t := s.setLand g.toNat { e with flush := false }
  s.when (s.coreUp && e.flush && e.u != 0) (if e.again then t else t.tallyAdd g.toNat)

/-! ### Completions -/

/-- A completion of a tally request of this slice whose TXN lies at `base`. -/
def State.tallyComp (s : State) (base : Nat) (f : Flit) : Bool :=
  let n := flitName f
  isComp f && n.sty && n.src = s.ring.tieSlice && base ≤ n.txn.toNat && n.txn.toNat < base + 64

/-- After an add has completed: a held final write goes on, and a trigger that came meanwhile sends the next add (R282, R284). -/
def State.afterAdd (s : State) (g : Nat) : State :=
  let e := s.landAt g
  if e.tally = .adding then s.tallyStart g
  else if e.due || e.u.toNat ≥ 2 ^ (fld s.land.landcfg 0 4).toNat then s.tallyAdd g
  else s

/-- The completion of an add (R282); one for an entry that waits for none is accepted and ignored (R285). -/
def State.addDone (s : State) (x : Src) (f : Flit) : State :=
  let g := (flitName f).txn.toNat - 0xE00
  let s := s.popRsp x
  let e := s.landAt g
  match e.add with
  | none => s
  | some k =>
    if rspCode f = 0 then (s.setLand g { e with add := none }).afterAdd g
    else (s.setLand g { e with add := none, u := e.u + k, again := true }).landErr g 3

/-- TALLY_ADD_COMPLETE. -/
def execTallyAddComplete (s : State) : Host.Outcome State Fault Refusal :=
  match s.rspAt (s.tallyComp 0xE00) with
  | some (x, f) => s.did (s.addDone x f).wakeRoom
  | none => .next s

/-- The group a TXN of a read or subtraction names. -/
def tallyGroup (f : Flit) : Nat := (flitName f).txn.toNat - 0xE40

/-- The last response of a tally request whose entry was freed has come: its TXN may be used again (R40, R285). -/
def State.staleDone (s : State) (g : Nat) : State :=
  let s := s.setLand g { s.landAt g with stale := false }
  if (s.landAt g).tally = .adding then s.tallyStart g else s

/-- The completion is that of a read: it announces line data, or a read is outstanding and failed. -/
def State.isRead (s : State) (f : Flit) : Bool :=
  s.tallyComp 0xE40 f && (rspType f = 1 || (s.landAt (tallyGroup f)).stale || (s.landAt (tallyGroup f)).tally = .reading) &&
    (rspCode f != 0 || rspType f != 1 || s.lineReady (flitName f))

/-- The completion of a read (R284 steps 3 and 4); one whose final write has timed out is ignored (R285). -/
def State.readDone (s : State) (x : Src) (f : Flit) : State :=
  let g := tallyGroup f
  let (s, d) := (s.popRsp x).takeLine (flitName f)
  let e := s.landAt g
  if e.stale then s.staleDone g
  else if e.tally != .reading then s
  else if rspCode f != 0 then (s.setLand g { e with tally := .gap }).landErr g 3
  else
    let v : BitVec 64 := (d.map fun p => fld p.1 0 64).getD 0
    if (e.held.map fun h => decide (h.lcnt ≤ v.toInt)).getD false then s.tallySub g e
    else s.setLand g { e with tally := .gap }

/-- TALLY_READ_COMPLETE. -/
def execTallyReadComplete (s : State) : Host.Outcome State Fault Refusal :=
  match s.rspAt s.isRead with
  | some (x, f) => s.did (s.readDone x f).wakeRoom
  | none => .next s

/-- The completion of a subtraction releases the held final write, which takes its turn at the home engine now (R284). -/
def State.subDone (s : State) (x : Src) (f : Flit) : State :=
  let g := tallyGroup f
  let s := s.popRsp x
  let e := s.landAt g
  if e.tally != .subbing then s
  else if rspCode f != 0 then (s.setLand g { e with tally := .subGap }).landErr g 3
  else match e.held with
    | none => s
    | some h =>
      let r := { h.r with since := s.ring.powcyc }
      { (s.setLand g { e with tally := .release, held := some { h with r } }) with home.q := s.home.q ++ [r] }

/-- TALLY_SUB_COMPLETE. -/
def execTallySubComplete (s : State) : Host.Outcome State Fault Refusal :=
  match s.rspAt fun f => s.tallyComp 0xE40 f && rspType f != 1 && !s.isRead f with
  | some (x, f) => s.did (s.subDone x f).wakeRoom
  | none => .next s

/-! ### Gaps and the tally timer -/

/-- TALLY_POLL (R284 step 3). -/
def execTallyPoll (g : BitVec 6) (s : State) : Host.Outcome State Fault Refusal :=
  let e := s.landAt g.toNat
  s.when (s.tallyRuns && e.tally = .gap && s.roomFor true) (s.tallyRead g.toNat e)

/-- TALLY_RETRY (R282, R284): an add or a subtraction that failed is sent again. -/
def execTallyRetry (g : BitVec 6) (s : State) : Host.Outcome State Fault Refusal :=
  let e := s.landAt g.toNat
  s.when (s.tallyRuns && s.roomFor false && ((e.again && e.add.isNone) || e.tally = .subGap))
    (if e.tally = .subGap then s.tallySub g.toNat e else s.tallyAdd g.toNat)

/-- TALLY_TIMEOUT (R285): a read that is outstanding keeps its TXN until its response has come (R40). -/
def execTallyTimeout (g : BitVec 6) (s : State) : Host.Outcome State Fault Refusal :=
  let e := s.landAt g.toNat
  match e.held with
  | some h =>
    s.when (e.tally = .adding || e.tally = .reading || e.tally = .gap)
      (((s.setLand g.toNat { e with held := none, tally := .idle, stale := e.stale || e.tally = .reading }).landErr g.toNat 0).answer
        h.r 8)
  | none => .next s

end Sys2Proof.Machine
end

