-- ==== Sys2Proof/Machine/ScanDesc.lean ====
section
/-! DEFINITION. The descriptor of a SCAN, its ranges, and what an accepted scan holds against the pinning manager (12 R355 to
R357, R362). -/
namespace Sys2Proof.Machine

/-! ### Fields (R355) -/

def descKbase (d : Body) : Nat := (fld d 0 52).toNat
def descEpoch (d : Body) : Bool := bit d 52
def descFused (d : Body) : Bool := bit d 53
def descBf16 (d : Body) : Bool := bit d 54
def descCen (d : Body) : Bool := bit d 55
def descKfmt (d : Body) : Nat := (fld d 56 4).toNat
def descVfmt (d : Body) : Nat := (fld d 60 4).toNat
def descVbase (d : Body) : Nat := (fld d 64 52).toNat
def descKstr (d : Body) : Nat := (fld d 116 3).toNat
def descVstr (d : Body) : Nat := (fld d 119 3).toNat
def descDsel (d : Body) : Nat := (fld d 122 2).toNat
def descRowCount (d : Body) : Nat := (fld d 128 24).toNat
def descCausal (d : Body) : Nat := (fld d 160 24).toNat
def descScale (d : Body) : Word := fld d 192 32

/-- The head dimension D. -/
def descDim (d : Body) : Nat := 64 * 2 ^ descDsel d

/-- The effective row count R. -/
def descRows (d : Body) : Nat := if descCen d then Nat.min (descRowCount d) (descCausal d) else descRowCount d

def descKstride (d : Body) : Nat := 2 ^ (5 + descKstr d)
def descVstride (d : Body) : Nat := 2 ^ (5 + descVstr d)

/-- First byte of key row `r`. -/
def descKey (d : Body) (r : Nat) : Nat := descKbase d + r * descKstride d

/-- First byte of value row `r`. -/
def descVal (d : Body) (r : Nat) : Nat := descVbase d + r * descVstride d

/-! ### Ranges (R358, R362) -/

/-- The bytes of a range lie inside a cairn. -/
def Cairn.holds (c : Cairn) (first len : Nat) : Bool :=
  c.base.toNat * 128 ≤ first && first + len ≤ (c.base.toNat + c.len.toNat) * 128

/-- The cairn contains the key range or the value range of a scan of memory space. -/
def ScanJob.uses (j : ScanJob) (c : Cairn) : Bool :=
  !j.r.space && descRows j.desc != 0 &&
    (c.holds (descKey j.desc 0) (descRows j.desc * descKstride j.desc) ||
      (descFused j.desc && c.holds (descVal j.desc 0) (descRows j.desc * descVstride j.desc)))

/-- An accepted scan keeps the pinning manager off this cairn (R362). -/
def State.scanHolds (s : State) (c : Cairn) : Bool := s.knd.scans.any fun j => j.uses c

end Sys2Proof.Machine
end

