-- ==== Sys2Proof/Machine/Pinning.lean ====
section
/-! DEFINITION. The pinning manager and the epoch switch's walks and moves (10 R297 to R306, R312 to R319). -/
namespace Sys2Proof.Machine

/-! ### PIN and UNPIN (R298, R300) -/

/-- First line of a range request, and the line behind its last. -/
def Req.first (r : Req) : Nat := r.line.ln.toNat
def Req.past (r : Req) : Nat := r.first + r.len.toNat

/-- The next PIN or UNPIN, when no walk runs. -/
def State.pinNext (s : State) (opc : BitVec 5) : Option Req :=
  if s.pin.walk.isSome then none else s.pin.q.head?.filter fun r => r.opc = opc

/-- Frames of each bank that a walk visits: all of a bank in service, none of another. -/
def State.walkStarts (s : State) : List Nat := (List.range 16).map fun b => if bit s.ctl.insvc b then 0 else 12288

/-- Starts a walk (R299). -/
def State.startWalk (s : State) (unpin : Bool) (r : Req) (row : Nat) (ranges : List (BitVec 45 × (Word × BitVec 4))) : State :=
  { (s.ev 90) with pin.walk := some { unpin, r, ranges, pos := s.walkStarts, left := 0, row, quota := false } }.pinWalkEnd

/-- A cairn and a range have a line in common. -/
def Cairn.overlaps (c : Cairn) (r : Req) : Bool :=
  r.len != 0 && c.base.toNat < r.past && r.first < c.base.toNat + c.len.toNat

/-- A cairn way of a bank in service lies outside WAYOFF (R298). -/
def State.cairnWays (s : State) : Bool :=
  (List.range 16).any fun b => bit s.ctl.insvc b &&
    (List.range 16).any fun w => s.role w = .cairn && !bit (nth s.cfg.arr.wayoff b 0) w

/-- A PIN is served (R298). -/
def State.servePin (s : State) (r : Req) : State :=
  let s := { s with pin.q := s.pin.q.drop 1 }
  if s.deadReq r.name then ((s.freePay r false).tobit 3).ev 77
  else
    let s := s.ev 88
    let base := r.line.ln
    if r.space || r.len = 0 then s.answer r 0
    else if s.pin.cairns.any fun p => p.2.base = base && p.2.len = r.len && p.2.cls = r.cls then s.answer r 0
    else if s.pin.cairns.any fun p => p.2.overlaps r then (s.pinErr 2).answer r 6
    else match tabFree s.pin.cairns 64 with
      | none => (s.pinErr 9).answer r 6
      | some i =>
        let row := if !s.cairnWays then 5 else if s.use r.cls ≥ s.quota r.cls then 6 else 7
        let s := if row = 5 then s.pinErr 1 else s
        let c : Cairn := { base, len := r.len, cls := r.cls, seq := s.pin.seq, demoting := false }
        { s with pin.cairns := tabPut s.pin.cairns i c, pin.seq := s.pin.seq + 1 }.startWalk false r row [(base, r.len, r.cls)]

/-! ### Demotion (R304, R305) -/

/-- The lowest cairn frame that holds a line of a cairn. -/
def State.cairnFrame (s : State) (c : Cairn) : Option Nat :=
  (s.arr.frames.find? fun p => s.role (keyWay p.1) = .cairn && p.2.fmt != .rframe &&
    p.2.valid.any fun i => c.covers (p.2.lineId p.1 i)).map fun p => p.1

/-- Cairns of a class that pin a line here, the oldest first. -/
def State.pinning (s : State) (c : BitVec 4) : List (Nat × Cairn) :=
  (earliest (fun p => 2 ^ 32 - (s.pin.seq - p.2.seq - 1).toNat) (s.pin.cairns.filter fun p => p.2.cls = c)).filter fun p =>
    (s.cairnFrame p.2).isSome

/-- Demotion of a class is over: its use is within its quota, or none of its cairns pins a line here. -/
def State.demoted (s : State) (c : BitVec 4) : Bool := decide (s.use c ≤ s.quota c) || decide (s.pinning c = [])

/-- A demotion step waits for a scan that uses its cairn: other pinning work waits behind it (R362). -/
def State.stepHeld (s : State) : Bool :=
  s.ctl.st = .running && (List.range 16).any fun c =>
    bit s.pin.demote c && !s.demoted (BitVec.ofNat 4 c) && ((s.pinning (BitVec.ofNat 4 c)).head?).any fun p => s.scanHolds p.2

/-- PIN. -/
def execPin (s : State) : Host.Outcome State Fault Refusal :=
  match s.pinNext 13 with
  | some r => s.when (s.coreUp && !s.stepHeld) (s.servePin r)
  | none => .next s

/-- The cairns an UNPIN releases: those that lie inside its range. -/
def State.released300 (s : State) (r : Req) : List (Nat × Cairn) :=
  s.pin.cairns.filter fun p => r.first ≤ p.2.base.toNat && p.2.base.toNat + p.2.len.toNat ≤ r.past

/-- An UNPIN is served (R300). -/
def State.serveUnpin (s : State) (r : Req) : State :=
  let s := { s with pin.q := s.pin.q.drop 1 }
  if s.deadReq r.name then ((s.freePay r false).tobit 3).ev 77
  else
    let s := s.ev 89
    if r.space then s.answer r 0
    else
      let out := s.released300 r
      let gone (p : Nat × Cairn) : Bool := out.any fun q => q.1 == p.1
      let s := if s.pin.cairns.any fun p => p.2.overlaps r && !gone p then s.pinErr 6 else s
      if out = [] then s.answer r 0
      else
        let ranges := out.map fun p => (p.2.base, p.2.len, p.2.cls)
        { s with pin.cairns := s.pin.cairns.filter fun p => !gone p }.startWalk true r 0 ranges

/-- A walk that would start waits for the scans that use a cairn it releases (R362). -/
def State.unpinHeld (s : State) (r : Req) : Bool :=
  !r.space && !s.deadReq r.name && (s.released300 r).any fun p => s.scanHolds p.2

/-- UNPIN. -/
def execUnpin (s : State) : Host.Outcome State Fault Refusal :=
  match s.pinNext 14 with
  | some r => s.when (s.coreUp && !s.stepHeld && !s.unpinHeld r) (s.serveUnpin r)
  | none => .next s

/-! ### Walks over the frames (R299, R300) -/

/-- A line lies in one of the ranges of a walk. -/
def PinWalk.covers (w : PinWalk) (l : LineId) : Bool :=
  !l.space && w.ranges.any fun r => r.1.toNat ≤ l.ln.toNat && l.ln.toNat < r.1.toNat + r.2.1.toNat

/-- The slots of a frame whose lines a predicate names, with their lines. -/
def State.linesAt (s : State) (k : Nat) (p : LineId → Bool) : List (Nat × LineId) :=
  match s.frame k with
  | none => []
  | some f => (f.valid.map fun i => (i, f.lineId k i)).filter fun x => p x.2

/-- A line can be evicted from its frame now: no open entry, no loaf lock on its loaf, its value in its slot (R190, R299, R324). -/
def State.leavable (s : State) (k : Nat) (l : LineId) : Bool :=
  !s.transient l && s.unlocked (keyBank k) (loafOf l) && !s.knOf l

/-- The same for a move or a demotion, which takes the bank's one loaf lock (R190, R299, R304). -/
def State.movable (s : State) (k : Nat) (l : LineId) : Bool := s.leavable k l && s.lockFree (keyBank k) l

/-- The frame a walk visits next in a bank. -/
def PinWalk.next (w : PinWalk) (bank : Nat) : Nat := bank * 12288 + nth w.pos bank 12288

/-- The lines the visit acts on: those of the ranges, in cache ways for a pin walk and in cairn ways for an unpin walk. -/
def State.walkLines (s : State) (w : PinWalk) (bank : Nat) : List (Nat × LineId) :=
  let k := w.next bank
  if s.role (keyWay k) = (if w.unpin then .cairn else .cache) then s.linesAt k w.covers else []

/-- A line moves from its cache-way slot into a cairn frame, its metadata unchanged (R299). -/
def State.toCairn (s : State) (k i : Nat) (l : LineId) (dest : Nat) : State :=
  match s.readOut k i .clean s.iclass with
  | (s, none) => s
  | (s, some x) =>
    let f := (Frame.fresh l .raw true).write 0 (lidxOf l) x.data x.mt
    let s := ((s.clearSlot k i).setFrame dest f).xfer k 2 s.iclass .raw
    { s with arr.struck := s.arr.struck.filter fun p => p.1 != dest }

/-- One line of a pin walk's visit: moved, or left and counted (R298, R299). -/
def State.pinLine (s : State) (bank : Nat) (x : Nat × LineId) : State :=
  match s.pin.walk with
  | none => s
  | some w =>
    let full := s.use w.r.cls ≥ s.quota w.r.cls
    match if full then none else s.freeFrame .cairn bank (setOf x.2) with
    | some dest => s.toCairn (w.next bank) x.1 x.2 dest
    | none => { (s.ev 91) with pin.walk := some { w with left := w.left + 1, quota := w.quota || (full && w.row = 7) } }

/-- The walk passes on to the bank's next frame. -/
def State.walkOn (s : State) (bank : Nat) : State :=
  { s with pin.walk := s.pin.walk.map fun (w : PinWalk) => { w with pos := upd w.pos bank (· + 1) } }.pinWalkEnd

/-- PIN_WALK_VISIT. -/
def execPinWalkVisit (bank : BitVec 4) (s : State) : Host.Outcome State Fault Refusal := s.starting <|
  match s.pin.walk with
  | some w =>
    let b := bank.toNat
    let xs := s.walkLines w b
    s.when (!w.unpin && nth w.pos b 12288 < 12288 && xs.all fun x => s.movable (w.next b) x.2)
      ((xs.foldl (fun s x => s.pinLine b x) s).walkOn b)
  | none => .next s

/-- UNPIN_WALK_VISIT: the lines of the ranges are evicted under R194. -/
def execUnpinWalkVisit (bank : BitVec 4) (s : State) : Host.Outcome State Fault Refusal := s.starting <|
  match s.pin.walk with
  | some w =>
    let b := bank.toNat
    let k := w.next b
    let xs := s.walkLines w b
    s.when (w.unpin && nth w.pos b 12288 < 12288 && (xs.all fun x => s.leavable k x.2) &&
        (xs = [] || s.evictRoom k s.iclass))
      ((xs.foldl (fun s x => s.evictLine k x.1 s.iclass .unpin) s).walkOn b)
  | none => .next s

/-! ### Demotion and thrash (R304 to R306) -/

/-- Demotion of a class ends (R304). -/
def State.demoteEnd (s : State) (c : BitVec 4) : State :=
  if s.demoted c then { s with pin.demote := clrBit s.pin.demote c.toNat } else s

/-- One demotion step: the lowest line of the cairn at index `i` is evicted (R304). -/
def State.demote (s : State) (c : BitVec 4) (i : Nat) (cn : Cairn) (k : Nat) : State :=
  ({ ((s.ev 92).evictFrame k s.iclass .other) with
    pin.cairns := tabPut s.pin.cairns i { cn with demoting := true } }).demoteEnd c

/-- DEMOTION_STEP (R304, R305, R362): no line is evicted once the class is within its quota. -/
def execDemotionStep (c : BitVec 4) (s : State) : Host.Outcome State Fault Refusal := s.starting <|
  let on := s.ctl.st = .running && bit s.pin.demote c.toNat
  if s.demoted c then s.when on (s.demoteEnd c)
  else match s.pinning c with
  | (i, cn) :: _ =>
    match s.cairnFrame cn with
    | some k =>
      s.when (on && !s.scanHolds cn && s.evictRoom k s.iclass && (s.linesAt k cn.covers).all fun x => s.movable k x.2)
        (s.demote c i cn k)
    | none => .next s
  | [] => .next s

/-- THRASH_WINDOW_END (R306). -/
def execThrashWindowEnd (s : State) : Host.Outcome State Fault Refusal :=
  s.when (s.coreUp && fld s.ring.powcyc 0 20 = 0) { s with arr.thrash := List.replicate 16 0 }

/-! ### The epoch walks (R312 to R314) -/

/-- Recalls the walks have open. -/
def State.recalls (s : State) : Nat := s.openCount fun h => h.st = .binv && h.why = .epoch

/-- A walk takes a line, or passes it when an entry is open for it (R313). -/
def State.epochPass (s : State) (l : LineId) : State :=
  match s.entryOf l with
  | some (i, h) => s.keep i (some { h with passed := true })
  | none => s.epochTake l

/-- Lines of a snoop-filter set that change slice. -/
def State.sfLeaving (s : State) (set : Nat) : List LineId :=
  ((List.range 16).filterMap fun w => (tabGet s.home.sf (set * 16 + w)).map fun e => e.line (set * 16 + w)).filter s.leaves

/-- The entries a walk would open for these lines can be opened. -/
def State.walkRoom (s : State) (ls : List LineId) : Bool :=
  let n := (ls.filter fun l => !s.transient l).length
  s.recalls + n ≤ 16 && s.home.ht.length + n ≤ 512

/-- EPOCH_SF_WALK_VISIT (R312, R313). -/
def execEpochSfWalkVisit (s : State) : Host.Outcome State Fault Refusal := s.starting <|
  let ls := s.sfLeaving s.pin.epSf
  s.when (s.ctl.busy && s.pin.epSf < 8192 && s.walkRoom ls)
    { (ls.foldl State.epochPass s) with pin.epSf := s.pin.epSf + 1 }

/-- Sets a loss in an epoch switch (R314, R317, R321). -/
def State.moveLoss (s : State) : State := s.pinErr 7

/-- A reduction frame set is discarded: its frames, its line-buffer entries and its frame-table entry. -/
def State.dropSet (s : State) (i : Nat) (f : FrameSet) : State :=
  { (f.keys.foldl (fun s k => s.dropFrame k) s) with
    knd.ft := tabDel s.knd.ft i
    knd.lb := s.knd.lb.filter fun e => !(e.2.frame.isSome && e.2.line = f.tgt) }

/-- The frame set a frame belongs to. -/
def State.setOfFrame (s : State) (k : Nat) : Option (Nat × FrameSet) := s.knd.ft.find? fun e => e.2.keys.contains k

/-- A visit of the tag walk to one frame (R314). -/
def State.tagVisit (s : State) (bank k : Nat) : State :=
  let s := match s.setOfFrame k with
    | some (i, f) =>
      if s.changesHome f.tgt && s.oldBank f.tgt = bank then
        { (s.dropSet i f) with pin.lostRf := satAdd s.pin.lostRf f.keys.length }.moveLoss
      else s
    | none => s
  (s.linesAt k fun l => s.changesHome l && s.oldBank l = bank).foldl (fun s x => s.epochPass x.2) s

/-- EPOCH_TAG_WALK_VISIT (R312 to R314). -/
def execEpochTagWalkVisit (bank : BitVec 4) (s : State) : Host.Outcome State Fault Refusal := s.starting <|
  let b := bank.toNat
  let p := nth s.pin.epTag b 12288
  let k := b * 12288 + p
  let ls := (s.linesAt k fun l => s.changesHome l && s.oldBank l = b).map fun x => x.2
  s.when (s.ctl.busy && p < 12288 && s.openCount (fun h => h.st = .move) < 256 && s.walkRoom ls &&
      ls.all fun l => s.transient l || !s.knOf l)
    { (s.tagVisit b k) with pin.epTag := upd s.pin.epTag b (· + 1) }

/-- Both walks have finished and nothing they began is open (R319). -/
def State.epochOver (s : State) : Bool :=
  s.pin.epSf ≥ 8192 && s.pin.epTag.all (· ≥ 12288) && s.openCount (fun h => h.st = .binv || h.st = .move) = 0 &&
    !s.mp.hold.any fun w => w.cause = .walk

/-- EPOCH_DONE. -/
def execEpochDone (s : State) : Host.Outcome State Fault Refusal :=
  s.when (s.ctl.busy && s.epochOver) ({ s with ctl.busy := false }.stIrq 0)

/-! ### Moves (R315, R317) -/

/-- The line a move sends, from the entry or from its old frame: data, poison, crust. -/
def State.moveData (s : State) (h : Ht) : State × Option (Line × (Bool × Word)) :=
  match h.data with
  | some (d, p) => (s, some (d, p, crust h.line d))
  | none =>
    match s.findIn (s.oldBank h.line) h.line with
    | some (k, i) =>
      match s.readOut k i .clean (s.htClass h) with
      | (s, some x) => (s, some (x.data, x.mt.psn, x.mt.crust))
      | (s, none) => (s, none)
    | none => (s, none)

/-- The WRITE_UNIQUE of a move: the fourth send goes without its crust and with poison (R317), of which a notice is sent unless the line was
poisoned already (R416). R426 lists no kind for it: it carries that of a move, with the code that led to it (DESIGN CHOICE, log 111). -/
def State.sendMove (s : State) (idx : Nat) (h : Ht) (sends : Nat) (r : Req) (d : Line) (p : Bool) (c : Word) : State :=
  let n : TxName := ⟨true, s.ring.tieSlice, BitVec.ofNat 12 idx⟩
  let dst := (s.homeIn s.activeMap h.line).1
  let last := sends ≥ 3
  let req := reqFlit dst n [(0, 6), (5, num h.line.space), (6, r.cls.toNat), (27, 2), (31, num !last),
    (32, (lineAddr h.line).toNat), (84, if last then 0 else c.toNat), (256, 2 ^ 128 - 1)]
  let s := if last && !p then
      s.scree { kind := 0x42, sev := 2, line := some h.line, unit := 14, cls := r.cls.toNat, cnt := 3, detail := 7 }
    else s
  s.sendReq r.cls req (lineFlits true dst n 1 d (p || last) false 0)

/-- The line goes out (R315). -/
def State.moveOut (s : State) (idx : Nat) (h : Ht) (sends : Nat) (r : Req) : State :=
  match s.moveData h with
  | (s, none) => s.settle idx h none
  | (s, some (d, p, c)) =>
    let s := s.sendMove idx h sends r d p c
    let s := if h.reread then s else { (s.ev 99) with pin.sent := s.pin.sent + 1 }
    s.keep idx (some { h with why := .move (sends + 1) false r, reread := true })

/-- MOVE_SEND, once an RSP entry is free for the completion (R59): it reads its line from the arrays (R441). -/
def execMoveSend (e : BitVec 9) (s : State) : Host.Outcome State Fault Refusal := s.starting <|
  match tabGet s.home.ht e.toNat with
  | some h =>
    match h.why with
    | .move sends wait r => s.when (wait && !h.timer && s.roomFor false) (s.moveOut e.toNat h sends r)
    | _ => .next s
  | none => .next s

/-- The old copy of a moved line is gone: V 0 (R315). -/
def State.dropOld (s : State) (l : LineId) : State :=
  match s.findIn (s.oldBank l) l with
  | some (k, i) => s.clearSlot k i
  | none => s

/-- A move has ended: the slot is V 0 and the entry closes (R319). -/
def State.moveEnd (s : State) (idx : Nat) (h : Ht) : State := (s.dropOld h.line).settle idx h none

/-- A line is lost (R317). -/
def State.loseLine (s : State) (idx : Nat) (h : Ht) (code : BitVec 4) : State :=
  (s.lineLost h.line (s.htClass h) code).moveEnd idx h

/-- The line goes to memory instead (R317); `none` while no write tag is free. -/
def State.moveToMemory (s : State) (idx : Nat) (h : Ht) : Option State :=
  match s.moveData h with
  | (s, none) => some (s.settle idx h none)
  | (s, some (d, p, _)) => (s.walkWrite h.line d p).map fun s => s.moveEnd idx h

/-- What a completion of a move does (R315, R317). -/
def State.moveDone (s : State) (idx : Nat) (h : Ht) (sends : Nat) (r : Req) (code : BitVec 4) : Option State :=
  let again (h : Ht) (n : Nat) : State := s.keep idx (some { h with why := .move n true r })
  if code = 0 then some (s.moveEnd idx h)
  else if code = 2 then some (again { h with timer := true } (sends - 1))
  else if code = 1 || code = 5 || code = 6 then
    if h.line.space then some (s.loseLine idx h code) else s.moveToMemory idx h
  else if sends < 4 then some (again h sends)
  else some (s.loseLine idx h code)

/-- A completion that answers an outstanding move. -/
def State.moveComp (s : State) (f : Flit) : Bool :=
  let n := flitName f
  isComp f && n.sty && n.src = s.ring.tieSlice &&
    (tabGet s.home.ht n.txn.toNat).any fun h => match h.why with
      | .move _ wait _ => !wait
      | _ => false

/-- MOVE_COMPLETE (R315, R317). -/
def execMoveComplete (s : State) : Host.Outcome State Fault Refusal :=
  match s.rspAt s.moveComp with
  | some (x, f) =>
    let idx := (flitName f).txn.toNat
    match tabGet s.home.ht idx with
    | some h =>
      match h.why with
      | .move sends _ r =>
        match (s.popRsp x).moveDone idx h sends r (rspCode f) with
        | some t => s.did t.wakeRoom
        | none => .next s
      | _ => .next s
    | none => .next s
  | none => .next s

/-- MOVE_RESEND (R317): 2¹⁰ RCK cycles after ERR_NOTRUN. -/
def execMoveResend (e : BitVec 9) (s : State) : Host.Outcome State Fault Refusal :=
  match tabGet s.home.ht e.toNat with
  | some h => s.when (h.timer && h.st = .move) ((s.ev 102).keep e.toNat (some { h with timer := false }))
  | none => .next s

end Sys2Proof.Machine
end

