-- ==== Sys2Proof/Machine/Qos.lean ====
section
/-! DEFINITION. Measured latency and priority steps, guarantee misses, effective reservations, and the rise limiter (13). -/
namespace Sys2Proof.Machine

/-! ### The window of latency samples (R383, R384, R386) -/

/-- A class of the QOS section. -/
def State.qcls (s : State) (c : Nat) : QCls :=
  nth s.cfg.qos.cls c { target := 0, base := 0, gmen := false, ports := 0, res := 0 }

def State.qavg (s : State) (c : Nat) : QAvg := nth s.qos.avg c { avg := 0, steps := 0, sum := 0, cnt := 0 }

/-- A power cap of R393 is below full rate: droop, or a throttle level above 0. -/
def State.capped (s : State) : Bool := s.pwr.droop || s.pwr.thr != 0

/-- AVG after a window in which `cnt` samples with this sum were taken (R383): the shift rounds toward minus infinity. -/
def newAvg (avg : BitVec 20) (sum cnt shift : Nat) : BitVec 20 :=
  if cnt = 0 then avg
  else BitVec.ofInt 20 ((avg.toNat : Int) + Int.shiftRight (((sum / cnt * 16 : Nat) : Int) - (avg.toNat : Int)) shift)

/-- Threshold i of a target, i from 1 to 4 (R384). -/
def threshold (target i : Nat) : Nat :=
  match i with
  | 1 => target * 128 / 256
  | 2 => target * 192 / 256
  | 3 => target * 230 / 256
  | _ => target

/-- Whether step i is held after a window end (R384). -/
def stepAfter (target avg : Nat) (i : Nat) (held : Bool) : Bool :=
  target != 0 &&
    if avg ≥ 16 * threshold target i then true
    else if (avg : Int) < 16 * ((threshold target i : Int) - (target / 16 : Nat)) then false
    else held

/-- The steps of a class after a window end; bit i − 1 is step i. -/
def newSteps (target avg : Nat) (st : BitVec 4) : BitVec 4 :=
  pack 4 ((List.range 4).map fun j => (j, num (stepAfter target avg (j + 1) (bit st j))))

/-- A guarantee miss of class `c` (R386). -/
def State.gmiss (s : State) (c : Nat) : State :=
  { (s.evq 141 c) with
    qos.gmiss := setBit s.qos.gmiss c
    qos.gmlast := pack 32 [(0, c), (4, s.prio (BitVec.ofNat 4 c)), (8, (s.qavg c).avg.toNat / 16), (31, 1)]
    qos.err := if s.capped then setBit s.qos.err 1 else s.qos.err }

/-- The end of a window for one class. -/
def State.windowClass (s : State) (c : Nat) : State :=
  let a := s.qavg c
  let q := s.qcls c
  let avg := newAvg a.avg a.sum a.cnt s.cfg.qos.shift.toNat
  let steps := newSteps q.target.toNat avg.toNat a.steps
  let s := (s.evk 133 c (ones (steps &&& ~~~a.steps))).evk 134 c (ones (a.steps &&& ~~~steps))
  let s := { s with qos.avg := upd s.qos.avg c fun _ => { avg, steps, sum := 0, cnt := 0 } }
  if q.gmen && bit steps 3 && !bit a.steps 3 then s.gmiss c else s

/-- QOS_WINDOW_END. -/
def execQosWindowEnd (s : State) : Host.Outcome State Fault Refusal :=
  s.when s.coreUp ((List.range 16).foldl State.windowClass s)

/-! ### Effective reservations (R389) -/

/-- The exponent k of the settled mode: log₂ of 3,200 Gbit/s over lane rate times width. -/
def Mode.k (m : Mode) : Nat := 5 - m.rate.toNat - m.width.toNat

/-- E of a class at port `p`. -/
def State.resE (s : State) (p c : Nat) : Nat :=
  let q := s.qcls c
  if bit q.ports p then q.res.toNat * (if p = 5 then 2 ^ s.lnk.mode.k else 1) else 0

/-- The sum S at port `p`. -/
def State.resS (s : State) (p : Nat) : Nat := (List.range 16).foldl (fun a c => a + s.resE p c) 0

/-- R' of an E under a sum S. -/
def resEff (e sum : Nat) : Nat := if sum ≤ 230 then e else e * 230 / sum

/-- R' of a port is computed again. -/
def State.reserve (s : State) (p : Nat) : State :=
  let sum := s.resS p
  let above := decide (sum > 230)
  let s := if above then s.ev 142 else s
  { s with qos.eff := upd s.qos.eff p fun _ => (List.range 16).map fun c => resEff (s.resE p c) sum
           qos.psum := upd s.qos.psum p fun _ => sum
           qos.pk := if p = 5 then s.lnk.mode.k else s.qos.pk
           qos.scaled := putBit s.qos.scaled p above
           qos.err := if above && !bit s.qos.scaled p then setBit s.qos.err 0 else s.qos.err }

/-- The saddle link carries flits, or holds a settled mode in an in-service retrain. -/
def State.linkUp (s : State) : Bool := s.lnk.st = .up || s.lnk.st = .retrain

/-- The recomputation after an image is applied: every port, the saddle port only while its link is up. -/
def State.reserveAll (s : State) : State :=
  (List.range 6).foldl (fun s p => if p = 5 && !s.linkUp then s else s.reserve p) s

/-! ### The rise limiter (R390, R391) -/

/-- BANK_GROUP_IDLE: the idle run of bank group `g` is complete. -/
def execBankGroupIdle (g : BitVec 2) (s : State) : Host.Outcome State Fault Refusal :=
  s.when (s.coreUp && s.cfg.qos.rlEn && !bit s.qos.idle g.toNat) { s with qos.idle := setBit s.qos.idle g.toNat }

/-- The level of a bank group in a ramp rises by 1; the ramp ends at level 3. -/
def State.rampUp (s : State) (g l : Nat) : State :=
  { s with qos.ramp := upd s.qos.ramp g fun _ => if l + 1 ≥ 3 then none else some (l + 1) }

/-- RAMP_LEVEL_STEP. -/
def execRampLevelStep (g : BitVec 2) (s : State) : Host.Outcome State Fault Refusal :=
  match nth s.qos.ramp g.toNat none with
  | some l => s.when s.coreUp (s.rampUp g.toNat l)
  | none => .next s

/-- Every bank group enters the ramp (R443); its idle run, if it had one, has ended. -/
def State.rampAll (s : State) : State :=
  if s.cfg.qos.rlEn then
    { (s.evk 138 0 4) with
      qos.idle := 0
      qos.ramp := List.replicate 4 (if s.cfg.qos.rlStart = 3 then none else some s.cfg.qos.rlStart.toNat) }
  else s

end Sys2Proof.Machine
end

