-- ==== Sys2Proof/Machine/Saddle.lean ====
section
/-! DEFINITION. The saddle port: training and the settled mode, frames, credits and replay, in-service retrain, loss of the link,
and the routing of received flits (03, 04 R130 and R131). -/
namespace Sys2Proof.Machine

/-! ### Start and end of training (R91, R97, R104, R110) -/

/-- Training runs. -/
def State.training (s : State) : Bool :=
  match s.lnk.st with
  | .detect | .ts1 | .lanechk | .capex | .rateset | .prbs | .align => true
  | .down | .up | .retrain => false

/-- The settings in force let the port train. -/
def State.mayTrain (s : State) : Bool := s.ring.tieEdge && s.lnk.cfg.enable && !s.lnk.hold

/-- The slew code of LNK_PHYC (R137). -/
def slewOf (c : LinkCfg) : BitVec 3 := fld c.phyc 0 3

/-- The PHY is asked for a rate and spread. A request under way holds its values until the PHY answers it, and the new one follows
(R84). -/
def State.phyAsk (s : State) (rate : BitVec 2) (ssc : Bool) : State :=
  if s.lnk.phyReq then
    { s with lnk.want := if rate = s.lnk.phyRate && ssc = s.lnk.phySsc then none else some (rate, ssc) }
  else { s with lnk.phyReq := true, lnk.phyRate := rate, lnk.phySsc := ssc, lnk.want := none }

/-- Full training begins: DETECT, all transmit lanes idle, the PHY asked for 100 Gbit/s without spread (R91, R137). `lost` tells
that it follows a loss in service. -/
def State.startTrain (s : State) (lost : Bool) : State :=
  let s := if s.lnk.phyReq || s.lnk.phyRate != 0 || s.lnk.phySsc then s.phyAsk 0 false else s
  { (s.ev 36) with
    lnk.st := .detect, lnk.errc := 0, lnk.laneEn := 0, lnk.good := 0, lnk.slew := slewOf s.lnk.cfg, lnk.drv := 0, lnk.lost := lost
    lnk.cands := [], lnk.best := none, lnk.aligned := 0, lnk.rreq := false, lnk.ragree := false, lnk.txFifo := [] }

/-- LINKING ends when training ends, and RUNNING is entered: the LOAD is complete (R97, R149, R151). -/
def State.trainEnded (s : State) : State :=
  if s.ctl.st = .linking then { s with ctl.st := .running }.stIrq 0 else s

/-- Sets a bit of LNK_ERR (R109). -/
def State.lnkErr (s : State) (i : Nat) : State := { s with lnk.err := setBit s.lnk.err i }

/-- Flits the replay buffer retains. -/
def Lnk.retained (l : Lnk) : Nat := l.replay.foldl (fun a r => a + r.2.1.length) 0

/-- Flits in the saddle receive buffers: those that still wait to be injected (R98, R107). -/
def Ports.sadFlits (p : Ports) : Nat := (p.ready.filter fun m => m.sad).foldl (fun a m => a + m.flits.length) 0

/-- The saddle receive buffers are discarded; a snoop among them never comes round the ring (R104). -/
def Ports.dropSad (p : Ports) : Ports :=
  { p with ready := p.ready.filter fun m => !m.sad
           relayed := (p.ready.filter fun m => m.sad && flitBcast (m.flits.headD 0)).foldl
             (fun l m => l.erase (flitName (m.flits.headD 0))) p.relayed }

/-- The link is down with an error code: the replay buffer and the saddle receive buffers are discarded and their flits are counted
(R104), and the transmit FIFO is emptied: its data frames are those of the replay buffer (R132; log 89). A request to the PHY under way stays until it is answered (R84). -/
def State.linkDown (s : State) (code : Nat) : State :=
  { (s.evk 37 0 (s.lnk.retained + s.port.sadFlits)) with
    port := s.port.dropSad
    lnk.st := .down, lnk.errc := BitVec.ofNat 5 code, lnk.laneEn := 0, lnk.good := 0, lnk.want := none, lnk.replay := []
    lnk.resend := [], lnk.seq := 0, lnk.ack := 0, lnk.disc := false, lnk.ask := false, lnk.limited := false, lnk.served := false
    lnk.lost := false, lnk.rreq := false, lnk.ragree := false, lnk.txFifo := [] }

/-- The link is lost in service: LNK_ERR.DOWN (R104). -/
def State.lostInService (s : State) : State := if s.lnk.served then s.lnkErr 3 else s

/-- Training ends down with an error code (R97, R104, R110). -/
def State.trainDown (s : State) (code : Nat) : State :=
  (((s.lostInService.linkDown (if s.lnk.lost && code != 2 then 9 else code)).lnkErr 0)).trainEnded

/-- The link goes down for another reason: a stopped PCK, the PHY-side reset, or an image that disables the port. The training that
follows a stopped PCK or the PHY-side reset is one after a loss when the link had been up (R110, R131). -/
def State.linkLost (s : State) (code : Nat) : State :=
  let lost := (code = 0x0A || code = 0x0B) && (s.lnk.served || s.lnk.lost)
  let t := if s.training then ((s.lostInService.linkDown code).lnkErr 0).trainEnded else (s.lostInService).linkDown code
  { t with lnk.lost := lost }

/-- HOLD_DOWN: training ends at once without an LNK_ERR bit (R110, R149); a link that was up goes down. -/
def State.holdLink (s : State) : State :=
  if s.training then (s.linkDown 0x0C).trainEnded
  else if s.linkUp then s.lostInService.linkDown 0x0C else s

/-- After LNK_PCKSTOP or LNK_PRST the link layer starts full training by itself (R131). -/
def State.relink (s : State) : State :=
  if s.lnk.st = .down && (s.lnk.errc = 0x0A || s.lnk.errc = 0x0B) && s.mayTrain && !s.ring.spRst && s.ring.pckRun &&
      s.ctl.st != .shapeless && s.ctl.st != .loading && s.ctl.st != .initializing && s.ctl.st != .off then s.startTrain s.lnk.lost
  else s

/-- LNK_CTL.RETRAIN: full training, unless training runs or the port waits for its PHY side (R109, R131). -/
def State.retrainCmd (s : State) : State :=
  if s.mayTrain && !s.training &&
      !((s.lnk.errc = 0x0A || s.lnk.errc = 0x0B) && s.lnk.st = .down && (s.ring.spRst || !s.ring.pckRun)) then s.startTrain s.lnk.lost
  else s

/-! ### DETECT to LANECHK (R91 to R94) -/

/-- The lanes whose far end is a driver: 0b10 in their two bits of SL_SP_TX_FESENSE. -/
def drivers (fesense : BitVec 16) : Byte :=
  pack 8 ((List.range 8).map fun l => (l, num ((fld fesense (2 * l) 2 : BitVec 2) == 2)))

/-- DETECT_END: TS1 goes out on all lanes. -/
def execDetectEnd (fesense : BitVec 16) (s : State) : Host.Outcome State Fault Refusal :=
  s.when (s.lnk.st = .detect) { s with lnk.st := .ts1, lnk.drv := drivers fesense, lnk.laneEn := 0xFF }

/-- TS1_RECOGNISED. -/
def execTs1Recognised (s : State) : Host.Outcome State Fault Refusal :=
  s.when (s.lnk.st = .ts1 && !s.ring.spRst) { s with lnk.st := .lanechk }

/-- NO_PARTNER_TIMEOUT. -/
def execNoPartnerTimeout (s : State) : Host.Outcome State Fault Refusal := s.when (s.lnk.st = .ts1) (s.trainDown 1)

def obsAt (obs : List LaneObs) (p : Nat) : LaneObs :=
  nth obs p { sigdet := false, active := false, allLow := false, allHigh := false, num := none, inverted := false }

/-- The receive lanes whose lane number fits an orientation (R93). -/
def fits (obs : List LaneObs) (rev : Bool) : Nat :=
  ((List.range 8).filter fun p => (obsAt obs p).num = some (BitVec.ofNat 3 (if rev then 7 - p else p))).length

/-- The orientation: reversal only when more lanes fit it. -/
def reversed (obs : List LaneObs) : Bool := decide (fits obs true > fits obs false)

/-- Physical receive lane of logical lane `l`. -/
def physOf (rev : Bool) (l : Nat) : Nat := if rev then 7 - l else l

/-- The fault code of logical lane `l`, 0 for a usable lane (R92, in the order of its table). -/
def laneCode (obs : List LaneObs) (drv : Byte) (rev : Bool) (l : Nat) : Nat :=
  let o := obsAt obs (physOf rev l)
  if bit drv l then 7
  else if !o.sigdet || !o.active then 3
  else if o.allLow then 1
  else if o.allHigh then 2
  else if o.num != some (BitVec.ofNat 3 l) then 5
  else 0

/-- The end of LANECHK. -/
def State.laneChecked (s : State) (obs : List LaneObs) : State :=
  let rev := reversed obs
  let code := laneCode obs s.lnk.drv rev
  let s := { s with
    lnk.rev := rev
    lnk.lflt := pack 24 ((List.range 8).map fun l => (3 * l, code l))
    lnk.polinv := pack 8 ((List.range 8).map fun l => (l, num (code l = 0 && (obsAt obs (physOf rev l)).inverted)))
    lnk.usable := pack 8 ((List.range 8).map fun l => (l, num (code l = 0))) }
  if s.lnk.drv != 0 then (s.trainDown 2).lnkErr 4 else { s with lnk.st := .capex, lnk.pgood := s.lnk.usable }

/-- LANECHK_END. -/
def execLanechkEnd (obs : List LaneObs) (s : State) : Host.Outcome State Fault Refusal :=
  s.when (s.lnk.st = .lanechk) (s.laneChecked obs)

/-! ### The mode (R90, R95, R96) -/

/-- The mask of the aligned group of width exponent `w` at base `b`. -/
def groupMask (w b : Nat) : Byte := BitVec.ofNat 8 ((2 ^ 2 ^ w - 1) * 2 ^ b)

/-- The widest aligned group of usable lanes among the allowed widths, the lowest first lane among equals: width exponent and
base (R95). -/
def bestGroup (usable : Byte) (allowed : BitVec 4) : Option (Nat × Nat) :=
  [3, 2, 1, 0].findSome? fun w =>
    if bit allowed w then
      ((List.range 8).find? fun b => b % 2 ^ w = 0 && (usable &&& groupMask w b) = groupMask w b).map fun b => (w, b)
    else none

/-- The widths both capability words allow. -/
def State.widths (s : State) : BitVec 4 := fld s.lnk.cfg.cap 2 4 &&& fld s.lnk.pcap 2 4

/-- FEC at a lane rate: always at 400 Gbit/s, off elsewhere only if both partners allow it (R95). -/
def State.fecAt (s : State) (rate : Nat) : Bool := rate ≥ 2 || !(bit s.lnk.cfg.cap 6 && bit s.lnk.pcap 6)

/-- Spread spectrum: both accept it and one prefers it (R95). -/
def State.sscOn (s : State) : Bool :=
  bit s.lnk.cfg.cap 7 && bit s.lnk.pcap 7 && (bit s.lnk.cfg.cap 8 || bit s.lnk.pcap 8)

/-- The usable rate of R90 in units that compare modes: raw rate times 10,880 without FEC, times 10,280 with it. -/
def rateValue (rate width : Nat) (fec : Bool) : Nat := 2 ^ (rate + width) * if fec then 10280 else 10880

def Mode.value (m : Mode) : Nat := rateValue m.rate.toNat m.width.toNat m.fec

/-- RATESET: the PHY is asked for a lane rate and the spread (R84). -/
def State.askPhy (s : State) (rate : BitVec 2) : State :=
  { (s.phyAsk rate s.sscOn) with lnk.st := .rateset }

/-- ALIGN at the settled mode, on the lanes of its group. The partner's credits will be full after it, so none is owed from before
(R98; log 72). -/
def State.toAlign (s : State) (m : Mode) : State :=
  { s with lnk.st := .align, lnk.laneEn := m.group, lnk.aligned := 0, lnk.badMk := List.replicate 8 0, lnk.owed := [0, 0, 0, 0] }

/-- The best mode is settled: ALIGN, after a change back to its rate when another candidate was tried last. -/
def State.settleMode (s : State) (m : Mode) : State :=
  let s := { s with lnk.cands := [] }
  if s.lnk.phyRate = m.rate then s.toAlign m else s.askPhy m.rate

/-- The next candidate is tried when it can exceed the best result so far; else the best is kept (R95). -/
def State.nextCand (s : State) : State :=
  let best := (s.lnk.best.map Mode.value).getD 0
  match s.lnk.cands, s.lnk.best with
  | r :: _, b =>
    if rateValue r.toNat s.lnk.width3.toNat (s.fecAt r.toNat) > best then s.askPhy r
    else match b with
      | some m => s.settleMode m
      | none => s.trainDown 3
  | [], some m => s.settleMode m
  | [], none => s.trainDown 3

/-- The end of CAPEX: both sides know the usable lanes and the candidates. -/
def State.capexed (s : State) (pcap : Word) (pgood : Byte) (maxr pmaxr : BitVec 2) : State :=
  let s := { s with lnk.pcap := pcap &&& 0x1FF, lnk.usable := s.lnk.usable &&& pgood, lnk.best := none }
  let mine : BitVec 2 := fld s.lnk.cfg.cap 0 2
  let its : BitVec 2 := fld pcap 0 2
  let top := [mine, maxr, its, pmaxr].foldl (fun (a : Nat) (r : BitVec 2) => Nat.min a r.toNat) 2
  if s.widths = (0 : BitVec 4) then s.trainDown 4
  else match bestGroup s.lnk.usable s.widths with
    | none => s.trainDown 3
    | some (w, _) =>
      { s with lnk.width3 := BitVec.ofNat 2 w
               lnk.cands := ((List.range (top + 1)).reverse).map fun r => BitVec.ofNat 2 r }.nextCand

/-- CAPEX_DONE. -/
def execCapexDone (pcap : Word) (pgood : Byte) (maxr pmaxr : BitVec 2) (s : State) : Host.Outcome State Fault Refusal :=
  s.when (s.lnk.st = .capex) (s.capexed pcap pgood maxr pmaxr)

/-- The PHY runs as asked: SL_SP_PHY_REQ is lowered. A change that waited for this is asked for next; else PRBS for a candidate, ALIGN
for the settled mode (R84). -/
def State.phyReady (s : State) : State :=
  let t := { s with lnk.phyReq := false }
  match s.lnk.want with
  | some (rate, ssc) => t.phyAsk rate ssc
  | none =>
    if t.lnk.st = .rateset then
      match t.lnk.cands, t.lnk.best with
      | [], some m => t.toAlign m
      | _, _ => { t with lnk.st := .prbs, lnk.laneEn := t.lnk.usable }
    else t

/-- PHY_RATE_READY. -/
def execPhyRateReady (s : State) : Host.Outcome State Fault Refusal := s.when (s.lnk.phyReq && !s.ring.spRst) s.phyReady

/-- PHY_TIMEOUT (R84). -/
def execPhyTimeout (s : State) : Host.Outcome State Fault Refusal := s.when (s.lnk.phyReq && s.training) (s.trainDown 5)

/-- A lane passes its PRBS test (R96). -/
def prbsPass (fec : Bool) (errs : Nat) : Bool := if fec then decide (errs ≤ 4026) else errs == 0

/-- The lanes that pass here. -/
def prbsMask (fec : Bool) (errs : List Nat) : Byte :=
  pack 8 ((List.range 8).map fun l => (l, num (prbsPass fec (nth errs l 1))))

/-- LNK_LFLT after a PRBS test of the usable lanes: code 0b100 for a lane that fails, 0 for one that passes. -/
def prbsFaults (lflt : BitVec 24) (usable pass : Byte) : BitVec 24 :=
  pack 24 ((List.range 8).map fun l =>
    (3 * l, if bit usable l then (if bit pass l then 0 else 4) else (fld lflt (3 * l) 3 : BitVec 3).toNat))

/-- The result of a candidate: the mode of the group that passed. -/
def State.prbsResult (s : State) (rate : BitVec 2) (pass : Byte) : Option Mode :=
  (bestGroup pass s.widths).map fun g =>
    { rate, group := groupMask g.1 g.2, lanes := pass, width := BitVec.ofNat 2 g.1, base := BitVec.ofNat 3 g.2, fec := s.fecAt rate.toNat
      ssc := s.sscOn }

/-- The better of the best result so far and a new one; a tie goes to the earlier, which has the higher rate (R95). -/
def betterMode (best new : Option Mode) : Option Mode :=
  match best, new with
  | some b, some n => if n.value > b.value then some n else some b
  | none, n => n
  | b, none => b

/-- The end of a PRBS step and of the exchange of its results in TS2: this slice has sent its mask, `ppass` is the partner's (R91). -/
def State.prbsDone (s : State) (errs : List Nat) (ppass : Byte) : State :=
  match s.lnk.cands with
  | [] => s
  | r :: rest =>
    let here := prbsMask (s.fecAt r.toNat) errs
    { s with lnk.lflt := prbsFaults s.lnk.lflt s.lnk.usable here, lnk.cands := rest, lnk.pgood := here
             lnk.best := betterMode s.lnk.best (s.prbsResult r (s.lnk.usable &&& here &&& ppass)) }.nextCand

/-- PRBS_END. -/
def execPrbsEnd (errs : List Nat) (ppass : Byte) (s : State) : Host.Outcome State Fault Refusal :=
  s.when (s.lnk.st = .prbs) (s.prbsDone errs ppass)

/-- TRAIN_PHASE_TIMEOUT: a phase has overrun its bound (R91). -/
def execTrainPhaseTimeout (ph : TrainPhase) (s : State) : Host.Outcome State Fault Refusal :=
  s.when (match ph with
    | .capex => s.lnk.st = .capex
    | .align => s.lnk.st = .align
    | .whole => s.training && s.lnk.st != .detect && s.lnk.st != .ts1) (s.trainDown 6)

/-! ### ALIGN and UP (R91, R98, R103) -/

/-- The mode an in-service retrain settles: the lane group it kept. -/
def keptMode (m : Mode) (keep : Byte) : Mode :=
  match bestGroup keep 15 with
  | some (w, b) => { m with group := keep, width := BitVec.ofNat 2 w, base := BitVec.ofNat 3 b }
  | none => m

/-- The link is up at a mode: credits for the partner's receive side, retained frames to be resent, and R' of port 5 (R98, R103). -/
def State.goUp (s : State) (m : Mode) : State :=
  { s with lnk.st := .up, lnk.mode := m, lnk.good := m.group, lnk.laneEn := m.group, lnk.served := true, lnk.lost := false
           lnk.rreq := false, lnk.ragree := false, lnk.credit := [128, 64, 128, 256]
           lnk.resend := s.lnk.replay.map fun (r : BitVec 6 × (List Flit × Nat)) => r.1 }.reserve 5

/-- ALIGN is done: after training at the settled mode, in an in-service retrain at the group kept (R91, R103). -/
def State.alignDone (s : State) : State :=
  if s.lnk.st = .align then
    match s.lnk.best with
    | some m => (s.goUp m).trainEnded
    | none => s
  else
    let m := keptMode s.lnk.mode s.lnk.keep
    let t := s.goUp m
    if m.width.toNat < s.lnk.mode.width.toNat then { t with lnk.errc := 7 }.lnkErr 1 else t

/-- ALIGN_DONE: 8 good control frames in a row have come. -/
def execAlignDone (s : State) : Host.Outcome State Fault Refusal :=
  s.when (8 ≤ s.lnk.aligned && (s.lnk.st = .align || (s.lnk.st = .retrain && s.lnk.ragree && !s.lnk.rreq))) s.alignDone

/-! ### In-service retrain (R101 to R103) -/

/-- An in-service retrain to a lane group begins, or begins again. -/
def State.retrainTo (s : State) (keep : Byte) : State :=
  { (if s.lnk.st = .retrain then s else s.ev 35) with
    lnk.st := .retrain, lnk.keep := keep, lnk.rreq := true, lnk.ragree := false, lnk.aligned := 0
    lnk.badMk := List.replicate 8 0 }

/-- The lanes in use, or kept by the retrain under way. -/
def State.liveLanes (s : State) : Byte := if s.lnk.st = .retrain then s.lnk.keep else s.lnk.good

/-- The lanes of the settled mode's rate that have not failed in service since (R95, R103). -/
def Lnk.stillUsable (l : Lnk) : Byte :=
  pack 8 ((List.range 8).map fun i => (i, num (bit l.mode.lanes i && (fld l.lflt (3 * i) 3 : BitVec 3) != 6)))

/-- The widths a retrain may choose: those allowed and no wider than the settled one (R103). -/
def State.keptWidths (s : State) : BitVec 4 := s.widths &&& BitVec.ofNat 4 (2 ^ (s.lnk.mode.width.toNat + 1) - 1)

/-- A lane fails in service: fault code 0b110, and an in-service retrain without it, which is sent on the lanes left (R92, R102,
R103). -/
def State.laneFails (s : State) (l : Nat) : State :=
  let s := { s with
    lnk.lflt := pack 24 ((List.range 8).map fun i =>
      (3 * i, if i = l then 6 else (fld s.lnk.lflt (3 * i) 3 : BitVec 3).toNat))
    lnk.laneEn := clrBit s.lnk.laneEn l }
  s.retrainTo (match bestGroup s.lnk.stillUsable s.keptWidths with
    | some (w, b) => groupMask w b
    | none => 0)

/-- The lane carries traffic, or is kept by a retrain. -/
def State.laneLive (s : State) (l : Nat) : Bool := s.linkUp && bit s.liveLanes l

/-- SADDLE_SIGNAL_LOSS (R102), with the 16 PCK cycles of it counted through their crossing (R120). -/
def execSaddleSignalLoss (lane : BitVec 3) (s : State) : Host.Outcome State Fault Refusal :=
  s.when (s.laneLive lane.toNat) ((s.pulses 1 32 16).laneFails lane.toNat)

/-- SADDLE_SYMBOL_THRESHOLD (R102). -/
def execSaddleSymbolThreshold (lane : BitVec 3) (s : State) : Host.Outcome State Fault Refusal :=
  s.when (s.laneLive lane.toNat && s.lnk.mode.fec) (s.laneFails lane.toNat)

/-- RETRAIN_TIMEOUT: the in-service retrain becomes full training (R103). -/
def execRetrainTimeout (s : State) : Host.Outcome State Fault Refusal :=
  s.when (s.lnk.st = .retrain) (s.startTrain true)

/-- Of two groups the narrower, at equal width that with the lower first lane (R103). -/
def narrower (a b : Byte) : Byte :=
  if ones a < ones b then a else if ones b < ones a then b else if a.toNat ≤ b.toNat then a else b

/-- A set the partner names, unless it would widen the link (R103). -/
def State.noWider (s : State) (set : Byte) : Byte := if ones set ≤ 2 ^ s.lnk.mode.width.toNat then set else s.lnk.good

/-- The partner's TYPE 0b11 frame (R103): the answer to ours, a crossing, or the request we answer. Nothing from before it is owed
any more, since both sides' credits will be full after ALIGN (R98; log 72). -/
def State.retrainFrame (s : State) (set : Byte) : State :=
  let set := s.noWider set
  if s.lnk.st = .retrain then
    let pick := if s.lnk.keep = 0 then set else narrower s.lnk.keep set
    { s with lnk.keep := pick, lnk.ragree := true, lnk.laneEn := if s.lnk.rreq then s.lnk.laneEn else pick
             lnk.owed := [0, 0, 0, 0] }
  else if s.lnk.st = .up then { (s.retrainTo set) with lnk.ragree := true, lnk.owed := [0, 0, 0, 0] }
  else s

/-! ### Sending frames (R86 to R89, R98 to R100) -/

/-- CRC-16 of a frame over header bits [23:0] and its slots (R86). -/
def frameCrc (hdr : BitVec 24) (slots : List Flit) : BitVec 16 :=
  crc16 (bytesOf hdr 3 ++ slots.flatMap fun f => bytesOf f 80)

/-- The 24 header bits before the CRC. -/
def frameHdr (typ : Nat) (seq ack : BitVec 6) (cnt cvc ccnt : Nat) : BitVec 24 :=
  pack 24 [(0, typ), (2, seq.toNat), (8, ack.toNat), (14, cnt), (19, cvc), (21, ccnt)]

/-- A frame's header with its CRC (R86). -/
def withCrc (hdr : BitVec 24) (slots : List Flit) : BitVec 40 :=
  hdr.setWidth 40 ||| ((frameCrc hdr slots).setWidth 40 <<< (24 : Nat))

/-- The CRC of a received frame is right (R86). -/
def crcGood (hdr : BitVec 40) (slots : List Flit) : Bool := fld hdr 24 16 == frameCrc (fld hdr 0 24) slots

/-- The channel whose credits a data frame returns, and how many units of 4 flits (R86). -/
def State.creditReturn (s : State) : Nat × Nat :=
  match (List.range 4).find? fun vc => nth s.lnk.owed vc 0 ≥ 4 with
  | some vc => (vc, Nat.min 7 (nth s.lnk.owed vc 0 / 4))
  | none => (0, 0)

/-- A frame goes out: into the transmit FIFO, from which the lanes take it (R119; log 89). -/
def State.frameSent (s : State) (f : SentFrame) : State := { s with lnk.sent := some f, lnk.txFifo := s.lnk.txFifo ++ [f] }

/-- A data frame with these flits goes out; it carries the ACK, the credits and any replay request. -/
def State.sendData (s : State) (seq : BitVec 6) (fs : List Flit) : State :=
  let (vc, n) := s.creditReturn
  let slots := fs ++ List.replicate (16 - fs.length) 0
  { (((s.pulse 3).1.ev 30).evk 28 0 fs.length).frameSent
      (.data (withCrc (frameHdr (num s.lnk.ask) seq s.lnk.ack fs.length vc n) slots) slots) with
    lnk.ask := false, lnk.since := s.lnk.since + 1, lnk.owed := upd s.lnk.owed vc (· - 4 * n) }

/-- Lanes in fault. -/
def Lnk.faulty (l : Lnk) : Byte :=
  pack 8 ((List.range 8).map fun i => (i, num ((fld l.lflt (3 * i) 3 : BitVec 3) != 0)))

/-- The marker of a logical lane: the pattern 0xA5C3, the lane number and the SEQ (R89; log 87). -/
def laneMarker (l : Nat) (seq : BitVec 6) : BitVec 64 := pack 64 [(0, 0xA5C3), (16, l), (19, seq.toNat)]

/-- The markers of the active lanes; 0 for a lane that is not active. -/
def laneMarkers (lanes : Byte) (seq : BitVec 6) : List (BitVec 64) :=
  (List.range 8).map fun l => if bit lanes l then laneMarker l seq else 0

/-- The 16 slots of a control frame (R85, R89). -/
def ctlSlots (c : CtlFields) : List Flit :=
  (Config.freeCtlSlots c.marks c.credits (c.good ++ c.fault) (c.newSet ++ c.width) ++ List.replicate 16 0).take 16

/-- The fields of a control frame or a retrain request: markers, credit counts, lane report, new lane set and width (R89). -/
def State.ctlFields (s : State) (typ : BitVec 2) : CtlFields :=
  { marks := laneMarkers s.lnk.laneEn s.lnk.seq
    credits := pack 40 ((List.range 4).map fun vc => (10 * vc, Nat.min 1023 (nth s.lnk.owed vc 0)))
    good := s.lnk.usable &&& ~~~s.lnk.faulty, fault := s.lnk.faulty
    newSet := if typ = 3 then s.lnk.keep else 0, width := if typ = 3 then (keptMode s.lnk.mode s.lnk.keep).width else 0 }

/-- A control frame or a retrain request goes out. -/
def State.sendCtl (s : State) (typ : BitVec 2) : State :=
  let c := s.ctlFields typ
  { ((s.pulse 3).1.ev 30).frameSent
      (.ctl (withCrc (frameHdr typ.toNat s.lnk.seq s.lnk.ack 0 0 0) (ctlSlots c)) (ctlSlots c) c) with
    lnk.owed := s.lnk.owed.map fun n => n - Nat.min 1023 n, lnk.since := 0 }

/-- What is taken for a frame: credits left, places left, flits taken, flits that stay, channels held back. -/
structure Fill where
  /-- Only flits without a parity error are taken. -/
  clean  : Bool
  credit : List Nat
  room   : Nat
  take   : List OutFlit
  stay   : List OutFlit
  shut   : List Nat

/-- One flit is offered to the frame: it goes in when a place and its channel's credits are there and nothing earlier of its
channel waits; a REQ flit needs the credits of its payload too (R98). -/
def Fill.offer (x : Fill) (f : OutFlit) : Fill :=
  let vc := flitVc f.f
  if x.room != 0 && !(x.clean && f.bad != 0) && !x.shut.contains vc && nth x.credit vc 0 != 0 &&
      (vc != 0 || (fld f.f 155 4).toNat ≤ nth x.credit 3 0) then
    { x with credit := upd x.credit vc (· - 1), room := x.room - 1, take := x.take ++ [f] }
  else { x with stay := x.stay ++ [f], shut := vc :: x.shut }

/-- A chosen request and its payload leave in their order: nothing passes a flit that waits. -/
def Fill.offerSel (x : Fill) (f : OutFlit) : Fill := if x.stay = [] then x.offer f else { x with stay := x.stay ++ [f] }

/-- Requests the arbiter has not chosen, and their payload, are not offered (R388). -/
def Fill.offerTx (x : Fill) (f : OutFlit) : Fill :=
  if flitVc f.f = 0 || isPayload f.f then { x with stay := x.stay ++ [f] } else x.offer f

/-- The flits of the next data frame: chosen requests first, then the other flits in order of arrival (R387, R388). -/
def State.frameFill (s : State) (clean : Bool) : Fill × List OutFlit :=
  let room := if s.lnk.replay.length ≥ 32 then 0 else Nat.min 16 (512 - s.lnk.retained)
  let a := s.lnk.sel.foldl Fill.offerSel { clean, credit := s.lnk.credit, room, take := [], stay := [], shut := [] }
  (s.lnk.tx.foldl Fill.offerTx { a with stay := [], shut := [] }, a.stay)

/-- A new data frame: with flits it takes the next SEQ and is retained; without, it repeats the last (R88, R99). -/
def State.newFrame (s : State) (stopped : Bool) : State :=
  let (x, sel) := s.frameFill true
  if stopped || x.take = [] then s.sendData s.lnk.seq []
  else
    let fs := x.take.map fun f => f.f
    let seq := s.lnk.seq + 1
    let s := x.take.foldl (fun s f => s.charge 11 f.cls 1) s
    { s with lnk.sel := sel, lnk.tx := x.stay, lnk.credit := x.credit, lnk.seq := seq
             lnk.replay := s.lnk.replay ++ [(seq, (fs, 0))] }.sendData seq fs

/-- The line of a flit for the saddle link, where the slice knows it: that of its request, in the transmit queue or open here. -/
def State.flitLine (s : State) (f : Flit) : Option LineId :=
  (((s.lnk.sel ++ s.lnk.tx).find? fun d => flitVc d.f = 0 && flitName d.f = flitName f).map fun d => (reqOf d.f .ring).line).orElse
    fun _ => (s.known (flitName f)).map Req.line

/-- A DAT flit whose header words pass, which goes on with POIS 1 (R405). -/
def poisonable (f : Flit) (bad : FlitPar) : Bool := flitVc f = 3 && (fld bad 0 4 : BitVec 4) = 0

/-- Four replays of a flit have failed at the check before framing: counted and reported, with SEV 2 where the flit goes on poisoned
(R401, R405, R426). -/
def State.frameParity (s : State) (f : OutFlit) (bad : FlitPar) : State :=
  if s.coreUp then
    (s.busReplay 5).1.scree {
      kind := 0x20, sev := if poisonable f.f bad then 2 else 1, line := if poisonable f.f bad then s.flitLine f.f else none
      unit := 12, cls := f.cls.toNat, agent := if bad &&& 3 = 0 then (flitName f.f).src.toNat else 0, cnt := 4, detail := bad.toNat }
  else s

/-- Flits leave the saddle transmit queue. -/
def State.unqueue (s : State) (out : OutFlit → Bool) : State :=
  { s with lnk.sel := s.lnk.sel.filter (! out ·), lnk.tx := s.lnk.tx.filter (! out ·) }

/-- The request of this name is in the saddle transmit queue. -/
def Lnk.holdsReq (l : Lnk) (n : TxName) : Bool := (l.sel ++ l.tx).any fun d => flitVc d.f = 0 && flitName d.f = n

/-- A flit that fails the check before framing, after its replays (R87, R405): a DAT flit whose header words pass is framed with
POIS 1; another is handled as one addressed to this slice (R402). A response that would be accepted has no transaction here. -/
def State.badFlit (s : State) (f : OutFlit) (bad : FlitPar) : State :=
  let n := flitName f.f
  let vc := flitVc f.f
  let s := s.frameParity f bad
  if poisonable f.f bad then
    let fix (d : OutFlit) : OutFlit := if d == f then { d with f := setBit d.f 64, bad := 0 } else d
    { s with lnk.sel := s.lnk.sel.map fix, lnk.tx := s.lnk.tx.map fix }
  else if bit bad 0 || bit bad 1 then s.unqueue (· == f)
  else if vc = 0 || (isPayload f.f && s.lnk.holdsReq n) then
    (s.unqueue fun d => (flitVc d.f = 0 || isPayload d.f) && flitName d.f = n).relayRing f.cls none
      [rspFlit n.sty n.src n 0 3 false 0 0 false 0 0]
  else if vc = 2 && (fld bad 0 6 : BitVec 6) = 0 || vc = 3 then (fun t => if t.coreUp then t.stray f.f else t) (s.unqueue (· == f))
  else s.unqueue (· == f)

/-- The check of one flit for the next frame: it keeps the words that failed when it came, which fail at every replay; words that fail
now are reread, and a reread that succeeds counts its replays (R401, R405). -/
def State.checkFlit (s : State) (f : OutFlit) (r : Option Reread) : State :=
  let n := (r.map Reread.n).getD 0
  let w := f.bad ||| (if n ≥ 5 then (r.map Reread.mask).getD 0 else 0)
  if w != 0 then s.badFlit f w else if s.coreUp then s.replays (Nat.min n 4) else s

/-- The check of the flits for the next frame (R87). -/
def State.checkFrame (s : State) (bad : List Reread) : State :=
  ((s.frameFill false).1.take.zipIdx).foldl (fun s p => s.checkFlit p.1 (bad.find? fun r => r.pos = p.2)) s

/-- No flit is framed while a frequency change is prepared or made (R105, R441). -/
def State.framingStopped (s : State) : Bool := s.pwr.fstate = .preparing || s.pwr.fstate = .acked

/-- The next frame of a link that is up: a control frame after 31 data frames, a retained frame to be resent, or a new frame; none with
flits while framing is stopped (R88, R100, R105). A frame resent after an ALIGN, which has filled the credits again, spends none
(log 72). -/
def State.nextFrame (s : State) : State :=
  if s.lnk.since ≥ 31 then s.sendCtl 2
  else if s.framingStopped then s.newFrame true
  else match s.lnk.resend with
    | q :: rest =>
      match s.lnk.replay.find? fun r => r.1 = q with
      | some r => ({ s with lnk.resend := rest }.ev 34).sendData q r.2.1
      | none => { s with lnk.resend := rest }.newFrame false
    | [] => s.newFrame false

/-- One frame: in ALIGN a control frame; in a retrain the request, on every lane still usable, then control frames on the lanes of the
group agreed (R103); else as above. -/
def State.frameOut (s : State) (bad : List Reread) : State :=
  match s.lnk.st with
  | .align => s.sendCtl 2
  | .retrain =>
    if s.lnk.rreq then { s.sendCtl 3 with lnk.rreq := false } else { s with lnk.laneEn := s.lnk.keep }.sendCtl 2
  | _ => (if s.framingStopped then s else s.checkFrame bad).nextFrame

/-- SADDLE_FRAME_SEND: `bad` are the flits for the frame whose parity fails at the check. It waits for room in the transmit FIFO (R119). -/
def execSaddleFrameSend (bad : List Reread) (s : State) : Host.Outcome State Fault Refusal :=
  s.when (s.ctl.st != .off && s.lnk.txFifo.length < 16 && (s.lnk.st = .up || s.lnk.st = .align ||
    (s.lnk.st = .retrain && ((s.lnk.rreq && s.lnk.keep != 0) || (!s.lnk.rreq && s.lnk.ragree))))) (s.frameOut bad)

/-! ### Receiving frames (R100, R101, R107) -/

/-- A flit of the saddle receive buffer waits to be injected; its credit is owed when it leaves (R107). -/
def State.relaySad (s : State) (cls : BitVec 4) (link : Option Dir) (f : Flit) : State :=
  s.send { port := 0, cls, vc := BitVec.ofNat 2 (flitVc f), flits := [f], pay := [], link, line := none, sample := false, own := false, sad := true }

/-- A flit received over the saddle port (R107): one for this slice is taken or declined, and leaves the receive buffer at once. -/
def State.saddleFlit (s : State) (f : Flit) : State :=
  let vc := flitVc f
  let cls : BitVec 4 := if vc = 0 then fld f 134 4 else s.iclass
  let s := (s.charge 11 cls 1).ev 29
  if flitDtyp f && flitDst f = s.ring.tieSlice then
    let s := { s with lnk.owed := addAt s.lnk.owed vc 1 }
    match s.eject f 0 with
    | .kept t => t
    | .declined => (if s.coreUp then s.ev 1 else s).relayRing cls (some .east) [bounced f]
  else if vc = 1 && bit f 130 && !flitDtyp f && (fld f 11 4 : BitVec 4).toNat = s.homeDie then
    ({ s with port.relayed := s.port.relayed ++ [flitName f] }.relaySad cls (some .east) (setBit f 48)).ev 38
  else s.relaySad cls none f

/-- Frames covered by an ACK leave the replay buffer (R99); progress ends the count of R101. -/
def State.acked (s : State) (a : BitVec 6) : State :=
  if s.lnk.replay.any fun r => r.1 = a then
    let left := (s.lnk.replay.dropWhile fun r => r.1 != a).drop 1
    { s with lnk.replay := left, lnk.limited := false, lnk.resend := s.lnk.resend.filter fun q => left.any fun r => r.1 = q }
  else s

/-- A replay request for the frame after `a` (R100, R101): the retained frames are resent, or at the fourth request the link
retrains at its present lane set, and after that trains in full. -/
def State.replayAsked (s : State) (a : BitVec 6) : State :=
  let s := s.ev 33
  match s.lnk.replay.find? fun r => r.1 = a + 1 with
  | none => s
  | some r =>
    let n := r.2.2 + 1
    let put (k : Nat) : List (BitVec 6 × (List Flit × Nat)) := s.lnk.replay.map fun x => if x.1 = r.1 then (x.1, (x.2.1, k)) else x
    if n < 4 then { s with lnk.replay := put n, lnk.resend := s.lnk.replay.map fun x => x.1 }
    else
      let t := { s with lnk.replay := put 0 }.lnkErr 2
      if s.lnk.limited then t.startTrain true
      else { (t.retrainTo s.lnk.good) with lnk.limited := true, lnk.errc := 8 }

/-- A frame that fails CRC or holds an uncorrectable codeword is discarded, and the next frame sent asks for a replay (R100). -/
def State.badFrame (s : State) : State := { s with lnk.disc := true, lnk.ask := true }

/-- Credits the partner returns. -/
def State.credited (s : State) (vc n : Nat) : State := { s with lnk.credit := addAt s.lnk.credit vc n }

/-- The flits of a data frame: taken in order, discarded while a replay is awaited, ignored when they repeat. -/
def State.dataFlits (s : State) (seq : BitVec 6) (fs : List Flit) : State :=
  if fs = [] then s
  else if seq = s.lnk.ack + 1 then fs.foldl State.saddleFlit { s with lnk.ack := seq, lnk.disc := false }
  else if s.lnk.disc then s
  else if (seq - s.lnk.ack).toNat < 32 && seq != s.lnk.ack then s.badFrame
  else s

/-- Credits in the CVC and CCNT fields of any frame (R98). -/
def State.hdrCredits (s : State) (hdr : BitVec 40) : State := s.credited (fld hdr 19 2).toNat (4 * (fld hdr 21 3).toNat)

/-- A data frame (TYPE 0b00 or 0b01). A CNT of 17 to 31, which R86 does not give, is taken as 16 filled slots (log 73). A replay asked
for while the link trains again needs nothing: every retained frame is resent after ALIGN (R101, R103). -/
def State.dataFrame (s : State) (hdr : BitVec 40) (slots : List Flit) (fecBad : Bool) : State :=
  if fecBad || !crcGood hdr slots then s.badFrame
  else
    let a : BitVec 6 := fld hdr 8 6
    let s := ((s.acked a).hdrCredits hdr).dataFlits (fld hdr 2 6) ((slots.take 16).take (fld hdr 14 5).toNat)
    if bit hdr 0 && s.lnk.st = .up then s.replayAsked a else s

/-- Lane markers of a control frame: a lane wrong in 2 control frames in a row fails, also during a retrain, which it restarts (R102,
R103). -/
def State.markers (s : State) (m : Byte) : State :=
  let cnt := (List.range 8).map fun l => if bit s.liveLanes l && !bit m l then nth s.lnk.badMk l 0 + 1 else 0
  let s := { s with lnk.badMk := cnt }
  match (List.range 8).find? fun l => nth cnt l 0 ≥ 2 with
  | some _ => ((List.range 8).filter fun l => nth cnt l 0 ≥ 2).foldl State.laneFails s
  | none => s

/-- The counts of a control frame. -/
def State.ctlCredits (s : State) (c : BitVec 40) : State :=
  (List.range 4).foldl (fun s vc => s.credited vc (fld c (10 * vc) 10 : BitVec 10).toNat) s

/-- The lanes whose marker in a control frame is right (R89, R102). -/
def markedLanes (c : CtlFields) (seq : BitVec 6) : Byte :=
  pack 8 ((List.range 8).map fun l => (l, num (nth c.marks l 0 == laneMarker l seq)))

/-- The lanes control frames come on. -/
def State.ctlLanes (s : State) : Byte :=
  match s.lnk.st with
  | .up => s.lnk.good
  | .retrain => s.lnk.keep
  | _ => s.lnk.laneEn

/-- ALIGN counts good control frames in a row, those deskewed and right in CRC (R91, R103). -/
def State.countAligned (s : State) (good : Bool) : State :=
  if s.lnk.st = .align || (s.lnk.st = .retrain && s.lnk.ragree) then
    { s with lnk.aligned := if good then s.lnk.aligned + 1 else 0 }
  else s

/-- A control frame or a retrain request (R89, R91, R98, R100, R103). -/
def State.ctlFrame (s : State) (hdr : BitVec 40) (slots : List Flit) (c : CtlFields) (fecBad : Bool) : State :=
  let ok := !fecBad && crcGood hdr slots
  let m := markedLanes c (fld hdr 2 6)
  let s := s.countAligned (ok && (m &&& s.ctlLanes) = s.ctlLanes && !bit hdr 0)
  if !ok then (if s.linkUp then s.badFrame.markers m else s.badFrame)
  else
    let s := ((s.acked (fld hdr 8 6)).hdrCredits hdr).ctlCredits c.credits
    if bit hdr 0 then s.retrainFrame c.newSet else if s.linkUp then s.markers m else s

/-- A received frame, by its TYPE. -/
def State.frameIn (s : State) (hdr : BitVec 40) (slots : List Flit) (c : CtlFields) (fecBad : Bool) : State :=
  if bit hdr 1 then s.ctlFrame hdr slots c fecBad else s.dataFrame hdr slots fecBad

/-- SADDLE_FRAME_RECEIVE, with the symbols corrected in it counted through their crossing (R120). -/
def execSaddleFrameReceive (hdr : BitVec 40) (slots : List Flit) (ctl : CtlFields) (fec : FecFound) (s : State) :
    Host.Outcome State Fault Refusal :=
  s.when (s.ctl.st != .off && !s.ring.spRst && (s.lnk.st = .up || s.lnk.st = .align || s.lnk.st = .retrain))
    ((s.pulses 1 31 fec.corr).frameIn hdr slots ctl fec.bad)

end Sys2Proof.Machine
end

