-- ==== Sys2Proof/Machine/Control.lean ====
section
/-! DEFINITION. The control plane: the firmware commands, loading an image, INITIALIZING, quiesce and drain (05 R140 to R157, R167 to
R169). -/
namespace Sys2Proof.Machine

/-! ### States and state errors (R140, R152) -/

/-- The code of a state (R140). -/
def stCode : SlState → Nat
  | .off => 0
  | .shapeless => 1
  | .loading => 2
  | .initializing => 3
  | .linking => 4
  | .running => 5
  | .quiescing => 6
  | .quiesced => 7
  | .draining => 8
  | .drained => 9
  | .fenced => 10

/-- A write rejected with a state error: `data` tells a write of ST_IMG_DATA from one of ST_CMD (R152, R174). -/
def State.stateErr (s : State) (op : BitVec 4) (data : Bool) : State :=
  { s with ctl.rejOp := if data then 0 else op, ctl.rejState := BitVec.ofNat 4 (stCode s.ctl.st), ctl.rejSrc := data
           ctl.rejCnt := satAdd s.ctl.rejCnt 1 }.stIrq 1

/-- RUNNING is entered: the command under way is complete (R151, R153), and unsent landing counts whose trigger has fired go out
(R287). -/
def State.enterRunning (s : State) : State := ({ s with ctl.st := .running }.stIrq 0).tallyDue

/-! ### The LINK section takes effect (R149, R150, R157) -/

/-- The PHY side keeps the port down: its reset is asserted, or PCK has not run since it stopped or since that reset (R131). -/
def State.phyDown (s : State) : Bool :=
  s.ring.spRst || (s.lnk.st = .down && (s.lnk.errc = 0x0A || s.lnk.errc = 0x0B) && !s.ring.pckRun)

/-- The link layer takes the settings of the image in force and full training starts, or the port is disabled. While the PHY side
keeps the port down, training starts only when it is back (R131). A port kept down with LNK_MISWIRE trains too: R94 names RETRAIN and
the next power-up, R150 and R157 start full training whatever the error code was, and the model follows these (log 71). -/
def State.takeLink (s : State) : State :=
  let t := { s with lnk.cfg := s.cfg.link, ctl.linkChanged := false }
  if !s.cfg.link.enable then t.lostInService.linkDown t.lnk.errc.toNat
  else if s.lnk.hold then t.linkDown 0x0C
  else if s.phyDown then t.linkLost (if s.ring.spRst then 0x0B else s.lnk.errc.toNat)
  else t.startTrain s.lnk.lost

/-- The end of INITIALIZING after a load from SHAPELESS: the rows of R150. -/
def State.linkOrRun (s : State) : State :=
  if !s.cfg.link.enable then s.takeLink.enterRunning
  else if s.linkUp && s.lnk.cfg == s.cfg.link then { s with ctl.linkChanged := false }.enterRunning
  else ({ s with ctl.st := .linking }.takeLink) |> fun t => if t.training then t else t.trainEnded

/-- A changed LINK section takes effect with RESUME (R157). -/
def State.resumeLink (s : State) : State := if s.ctl.linkChanged then s.takeLink else s

/-! ### Commands (R151) -/

/-- LOAD (R167). -/
def State.cmdLoad (s : State) : State :=
  { s with ctl.lorig := s.ctl.st, ctl.st := .loading, ctl.phase := .receiving, ctl.img := [], ctl.imgCnt := 0, ctl.leCode := 0
           ctl.leSect := 0, ctl.leOff := 0 }

/-- LOADING ends in its origin state; received words are discarded. -/
def State.endLoad (s : State) : State :=
  { s with ctl.st := s.ctl.lorig, ctl.lorig := .off, ctl.phase := .none, ctl.img := [] }.relink

/-- Classes over their quota start demotion, and no other is in it (R304). -/
def State.startDemotion (s : State) : State :=
  { s with pin.demote := pack 16 ((List.range 16).map fun c =>
    (c, num (decide (s.use (BitVec.ofNat 4 c) > s.quota (BitVec.ofNat 4 c))))) }

/-- RESUME (R151, R156, R157, R304, R312). -/
def State.cmdResume (s : State) : State :=
  if s.ctl.st = .drained then { s with ctl.st := .initializing, ctl.initResume := true, cfg.prevMap := none }.resumeLink
  else { s with cfg.prevMap := none }.startDemotion.resumeLink.enterRunning

/-- EPOCH (R312, R321). -/
def State.cmdEpoch (s : State) : State :=
  { s with cfg.prevMap := some s.activeMap, ctl.epoch := !s.ctl.epoch, ctl.busy := true, pin.epSf := 0
           pin.epTag := (List.range 16).map fun b => if bit s.ctl.insvc b then 0 else 12288
           pin.sent := 0, pin.rcvd := 0, pin.lostN := 0, pin.lostRf := 0 }

/-- A class without a target holds no step (R384). -/
def State.dropSteps (s : State) : State :=
  { s with qos.avg := (List.range 16).map fun c =>
    let a := s.qavg c
    if (s.qcls c).target = 0 then { a with steps := 0 } else a }

/-- The image is discarded (R148, R151): SHAPELESS, and nothing stays in the arrays (R156). The link layer keeps its settings. What
ST_STATE.EPOCH and PIN_SHARE read now the manual does not say: they keep their values (log 75). No class has a target any more, so none holds
a step (R384). -/
def State.discardImage (s : State) : State :=
  State.dropSteps { s with
    ctl.st := .shapeless, ctl.initResume := false, ctl.linkChanged := false, ctl.insvc := 0, ctl.gov := 0, cfg := .reset
    arr.frames := [], arr.rewrite := [], arr.struck := [], arr.locks := [], home.sf := [], knd.lb := [] }

/-- A write of ST_CMD (R81, R151, R152). DRAIN clears both counts of ST_DRNCNT: R174 says so of BUFLINES and is silent on FRAMES (DESIGN CHOICE:
log 99). -/
def State.command (s : State) (op : BitVec 4) : State :=
  let st := s.ctl.st
  let free := !s.ctl.busy
  if s.ring.tstMode then s.stateErr op false
  else match op.toNat with
    | 1 => if st = .shapeless || (st = .quiesced && free) || st = .drained then s.cmdLoad else s.stateErr op false
    | 2 => if st = .loading && s.ctl.phase = .receiving then s.endLoad.stIrq 0 else s.stateErr op false
    | 3 => if st = .running then { s with ctl.st := .quiescing } else s.stateErr op false
    | 4 => if (st = .quiesced && free) || st = .drained then s.cmdResume else s.stateErr op false
    | 5 => if st = .quiesced && free then s.cmdEpoch else s.stateErr op false
    | 6 => if st = .running || (st = .quiesced && free) then
        { s with ctl.st := .draining, ctl.drnBuf := 0, ctl.drnFr := 0 } else s.stateErr op false
    | 7 => if st = .drained then s.discardImage.stIrq 0 else s.stateErr op false
    | _ => s.stateErr op false

/-! ### Loading (R167 to R169) -/

/-- A load fails: ST_LOADERR, LOAD_ERR, the rejection counted, and the origin state with the configuration of before (R169). -/
def State.failLoad (s : State) (e : LoadErr) : State :=
  ({ s with ctl.leCode := BitVec.ofNat 5 e.code, ctl.leSect := BitVec.ofNat 16 e.sect, ctl.leOff := BitVec.ofNat 14 e.off
            ctl.loadRej := s.ctl.loadRej + 1 }.endLoad).stIrq 2

/-- The LENGTH word of the words received, when it has come. -/
def State.imgLength (s : State) : Nat := (nth s.ctl.img.reverse 2 0).toNat

/-- A write of ST_IMG_DATA (R152, R167). -/
def State.imgData (s : State) (d : Word) : State :=
  if s.ctl.st = .loading && s.ctl.phase = .receiving then
    let i := s.ctl.imgCnt.toNat
    let t := { s with ctl.img := d :: s.ctl.img, ctl.imgCnt := s.ctl.imgCnt + 1 }
    match earlyErr i d with
    | some e => t.failLoad e
    | none => if 2 ≤ i && 4 * (i + 1) = t.imgLength then { t with ctl.phase := .checking } else t
  else s.stateErr 0 true

/-- IMAGE_CHECK_DONE (R169): the checks have been made. -/
def State.checked (s : State) : State :=
  match s.checkImage s.ctl.img.reverse with
  | .error e => s.failLoad e
  | .ok _ => { s with ctl.phase := .applying }

def execImageCheckDone (s : State) : Host.Outcome State Fault Refusal :=
  s.when (s.ctl.st = .loading && s.ctl.phase = .checking) s.checked

/-- The configuration of an image takes effect in the apply cycle (R163 to R165, R389). Before the first bond test no bank has passed
it, and ST_BANKS.INSVC reads 0 (R148). -/
def State.configure (s : State) (i : Image) : State :=
  { s with cfg := i.cfg, ctl.epoch := i.epoch, ctl.gov := i.gov, ctl.prof := i.prof.getD s.ctl.prof, ctl.imgser := i.serial
           ctl.insvc := if s.ring.bondDone then i.cfg.arr.insvc &&& ~~~s.ring.bondFail else 0
           ctl.linkChanged := s.ctl.linkChanged || s.cfg.link != i.cfg.link }.dropSteps.reserveAll

/-- The end of the apply phase (R169): INITIALIZING, or back to the origin. -/
def State.applied (s : State) (i : Image) : State :=
  let t := s.configure i
  if s.ctl.lorig = .shapeless then
    { t with ctl.st := .initializing, ctl.lorig := .off, ctl.phase := .none, ctl.img := [], ctl.initResume := false }
  else t.endLoad.stIrq 0

/-- IMAGE_APPLY_DONE. -/
def execImageApplyDone (s : State) : Host.Outcome State Fault Refusal :=
  match s.checkImage s.ctl.img.reverse with
  | .ok i => s.when (s.ctl.st = .loading && s.ctl.phase = .applying) (s.applied i)
  | .error _ => .next s

/-! ### INITIALIZING (R146 to R150, R191, R225, R256, R325, R333) -/

/-- The banks a list of failing connections names. -/
def failMask (fails : List (BitVec 4 × BitVec 10)) : BitVec 16 := fails.foldl (fun m f => setBit m f.1.toNat) 0

/-- The bond test, run once after SL_RS_RST_N (R147). -/
def State.bondTest (s : State) (fails : List (BitVec 4 × BitVec 10)) : State :=
  if s.ring.bondDone then s
  else
    let t := { s with ring.bondDone := true, ring.bondFail := failMask fails, ring.bondBad := fails }
    if fails = [] then t else t.stIrq 3

/-- A pending reclaim walk is complete when INITIALIZING clears the snoop filter (R256). -/
def State.walkCleared (s : State) : State :=
  let due := s.home.dead.any fun d => d.valid && !d.done
  let t := { s with home.walk := false, home.walkSet := 0
                    home.dead := s.home.dead.map fun (d : Dead) => if d.valid then { d with done := true, left := 0, opens := [] } else d }
  if due then t.tobit 6 else t

/-- Tags, snoop filter, miss registers, line buffer and landing table are clear, the LFSRs are loaded, every AVG is 0. The manual does not say
what becomes of an eviction decoded in DRAINED that is still under way: its entry is cleared and gives no answer (R156; DESIGN CHOICE: log
100). -/
def State.clearArrays (s : State) : State :=
  let seed := s.cfg.arr.seed
  { s with
    arr.frames := [], arr.rewrite := [], arr.struck := [], arr.locks := [], arr.lfsr := (List.range 16).map fun b => seed.rotateLeft b
    mp.miss := [], home.sf := [], home.ht := [], home.sfLfsr := seed.rotateLeft 8
    knd.lb := [], knd.ft := [], knd.lbLfsr := seed.rotateLeft 4, knd.srLfsr := s.cfg.knd.seed
    land.tab := [], qos.avg := s.qos.avg.map fun (a : QAvg) => { a with avg := 0 }
    pin.share := BitVec.ofNat 18 (pinShare s.cfg.arr s.ctl.insvc) }.walkCleared

/-- The end of INITIALIZING. -/
def State.initialized (s : State) (fails : List (BitVec 4 × BitVec 10)) : State :=
  let s := s.bondTest fails
  let s := { s with ctl.insvc := s.cfg.arr.insvc &&& ~~~s.ring.bondFail }
  if s.ctl.insvc = (0 : BitVec 16) then
    { s.discardImage with ctl.leCode := 14, ctl.leSect := 0x10, ctl.leOff := 0 }.stIrq 2
  else
    let s := s.clearArrays
    if s.ctl.initResume then ({ s with ctl.initResume := false }.enterRunning).relink else s.linkOrRun

/-- INITIALIZING_DONE. -/
def execInitializingDone (fails : List (BitVec 4 × BitVec 10)) (s : State) : Host.Outcome State Fault Refusal :=
  s.when (s.ctl.st = .initializing) (s.initialized fails)

/-! ### Quiesce (R154) -/

/-- No flit or message of the core waits to be sent. -/
def State.coreSent (s : State) : Bool :=
  let free (j : Inj) : Bool := (j.req ++ j.snp ++ j.rsp ++ j.dat).all fun x => !x.own
  (s.port.ready.all fun m => !m.own) && free s.port.east.inj && free s.port.west.inj && free s.port.npa.inj && free s.port.npb.inj

/-- No request the front end has decoded is waiting or under way. -/
def State.allServed (s : State) : Bool :=
  s.home.q.isEmpty && s.home.scanQ.isEmpty && s.home.invQ.isEmpty && s.home.digQ.isEmpty && s.home.invs.isEmpty &&
    s.home.dig.isNone && s.knd.scans.isEmpty && s.pin.q.isEmpty && s.pin.walk.isNone

/-- The conditions of R154. -/
def State.quiet (s : State) : Bool :=
  s.coreSent && s.allServed && s.mp.miss.isEmpty && s.home.ht.isEmpty && (s.knd.lb.all fun e => !e.2.kn) &&
    (s.mp.hold.isEmpty || !s.ring.mpUp) && (s.land.tab.all fun e => e.2.held.isNone)

/-- QUIESCED_REACHED. -/
def execQuiescedReached (s : State) : Host.Outcome State Fault Refusal :=
  s.when (s.ctl.st = .quiescing && s.quiet) ({ s with ctl.st := .quiesced }.stIrq 0)

/-! ### Drain (R155) -/

/-- Step 1: cairns and pins are gone. -/
def State.dropPins (s : State) : State :=
  { s with pin.cairns := [], pin.demote := 0
           arr.frames := s.arr.frames.map fun (p : Nat × Frame) => (p.1, { p.2 with pin := false }) }

/-- Step 2: open reduction frame sets are discarded and counted. -/
def State.dropSets (s : State) : State :=
  s.knd.ft.foldl (fun s p => { (s.dropSet p.1 p.2) with ctl.drnFr := satAdd s.ctl.drnFr p.2.keys.length }) s

/-- Step 3: buffer-space lines are dropped and counted. -/
def State.dropBuffer (s : State) : State :=
  s.arr.frames.foldl (fun (s : State) p =>
    if p.2.space && p.2.fmt != .rframe then
      { (s.dropFrame p.1) with ctl.drnBuf := s.ctl.drnBuf + BitVec.ofNat 24 p.2.valid.length }
    else s) s

/-- The dirty memory-space lines of the arrays: frame key and slot. -/
def State.dirtyLines (s : State) : List (Nat × Nat) :=
  s.arr.frames.flatMap fun p =>
    if p.2.space || p.2.fmt = .rframe then []
    else (p.2.valid.filter fun i => (nth p.2.slots i .empty).mt.d).map fun i => (p.1, i)

/-- A dirty line goes to the write hold and becomes clean; it stays valid. -/
def State.cleanLine (s : State) (k i : Nat) : State :=
  match s.frame k with
  | none => s
  | some f =>
    match s.readOut k i .clean s.iclass with
    | (s, some r) => ((s.hold (f.lineId k i) r.data r.mt.psn r.mt.crust s.iclass .drain).1.ev 50).modMeta k i fun m => { m with d := false }
    | (s, none) => s

/-- Step 4, as far as free write tags allow. -/
def State.cleanLines (s : State) : State := (s.dirtyLines.take s.freeTags.length).foldl (fun s x => s.cleanLine x.1 x.2) s

/-- The drain goes on from the conditions of R154; it ends when no dirty line is left and every write is complete, and not while the
memory port is down. -/
def State.drainOn (s : State) : State :=
  let s := s.dropPins.dropSets.dropBuffer.cleanLines
  if s.dirtyLines = [] && s.mp.hold.isEmpty && s.ring.mpUp then { s with ctl.st := .drained }.stIrq 0 else s

/-- The conditions of R154: nothing of the core is under way but the drain's own writes, or those a port that is down holds. -/
def State.drainable (s : State) : Bool :=
  s.coreSent && s.allServed && s.mp.miss.isEmpty && s.home.ht.isEmpty && (s.knd.lb.all fun e => !e.2.kn) &&
    (s.land.tab.all fun e => e.2.held.isNone) && (s.mp.hold.all (fun w => w.cause = .drain) || !s.ring.mpUp)

/-- DRAINED_REACHED: the drain goes on, and DRAINED is entered when it is complete. -/
def execDrainedReached (s : State) : Host.Outcome State Fault Refusal :=
  s.when (s.ctl.st = .draining && s.drainable) s.drainOn

end Sys2Proof.Machine
end

