-- ==== Sys2Proof/Machine/Floats.lean ====
section
/-! DEFINITION. Floating-point values, exactly: decoding of every format, exact sums and products, and the one rounding of a
result (11 R331 to R335, R468; 12 R364). -/
namespace Sys2Proof.Machine

/-! ### Values -/

/-- A decoded value: a NaN, an infinity, or plus or minus `m` times two to the `e`. -/
inductive Fv where
  | nan
  | inf (neg : Bool)
  | fin (neg : Bool) (m : Nat) (e : Int)
  deriving DecidableEq, Repr

/-- What the codes with all exponent bits set mean (R331). -/
inductive Top where
  /-- An infinity with mantissa 0, else a NaN. -/
  | ieee
  /-- A NaN with all mantissa bits set, else a finite value. -/
  | nanOnly
  | finite
  deriving DecidableEq, Repr

/-- A binary format: exponent bits, mantissa bits, bias. -/
structure Ff where
  eb   : Nat
  mb   : Nat
  bias : Nat
  top  : Top
  deriving DecidableEq, Repr

def fp32 : Ff := ⟨8, 23, 127, .ieee⟩
def fp16 : Ff := ⟨5, 10, 15, .ieee⟩
def bf16 : Ff := ⟨8, 7, 127, .ieee⟩
def e4m3 : Ff := ⟨4, 3, 7, .nanOnly⟩
def e5m2 : Ff := ⟨5, 2, 15, .ieee⟩
def e2m3 : Ff := ⟨2, 3, 1, .finite⟩
def e3m2 : Ff := ⟨3, 2, 3, .finite⟩
def e2m1 : Ff := ⟨2, 1, 1, .finite⟩

/-- The format of the elements of a floating-point KFMT (R331). -/
def ffOf (kfmt : Nat) : Ff :=
  match kfmt with
  | 4 => fp32
  | 5 => fp16
  | 6 => bf16
  | 7 | 9 => e4m3
  | 8 | 10 => e5m2
  | 11 => e2m3
  | 12 => e3m2
  | _ => e2m1

/-- Width of an element of a KFMT (R331). -/
def fmtBits (kfmt : Nat) : Nat :=
  match kfmt with
  | 0 | 7 | 8 | 9 | 10 | 14 => 8
  | 1 | 5 | 6 => 16
  | 2 | 4 => 32
  | 3 => 64
  | 11 | 12 => 6
  | _ => 4

/-- The value of a code of a format; subnormals are kept (R331). -/
def Ff.decode (f : Ff) (x : Nat) : Fv :=
  let man := x % 2 ^ f.mb
  let ex := x / 2 ^ f.mb % 2 ^ f.eb
  let neg := x / 2 ^ (f.mb + f.eb) % 2 == 1
  if ex = 2 ^ f.eb - 1 && f.top = .ieee then (if man = 0 then .inf neg else .nan)
  else if ex = 2 ^ f.eb - 1 && f.top = .nanOnly && man = 2 ^ f.mb - 1 then .nan
  else if ex = 0 then .fin neg man (1 - f.bias - f.mb)
  else .fin neg (2 ^ f.mb + man) (ex - f.bias - f.mb)

/-- A value times two to the `k`. -/
def Fv.scale (v : Fv) (k : Int) : Fv :=
  match v with
  | .fin n m e => .fin n m (e + k)
  | v => v

/-- A signed integer as a value. -/
def Fv.ofInt (i : Int) (e : Int) : Fv := .fin (i < 0) i.natAbs e

/-- A code of `w` bits as a signed integer. -/
def signedOf (w x : Nat) : Int := if x % 2 ^ w < 2 ^ (w - 1) then (x % 2 ^ w : Nat) else (x % 2 ^ w : Nat) - (2 ^ w : Nat)

/-- The value of an element code of any KFMT under scale byte `sc`, which only MX formats use (R329, R331). -/
def elemValue (kfmt x sc : Nat) : Fv :=
  if kfmt < 4 then .ofInt (signedOf (fmtBits kfmt) x) 0
  else if kfmt < 9 then (ffOf kfmt).decode x
  else if sc = 255 then .nan
  else if kfmt = 14 then (Fv.ofInt (signedOf 8 x) (-6)).scale (sc - 127)
  else ((ffOf kfmt).decode x).scale (sc - 127)

/-! ### Exact sums and products -/

def Fv.isNan : Fv → Bool
  | .nan => true
  | _ => false

/-- A finite value as a signed integer in units of two to the `e0`, `e0` at most its exponent. -/
def signedAt (neg : Bool) (m : Nat) (e e0 : Int) : Int :=
  let k : Nat := m * 2 ^ (e - e0).toNat
  if neg then -(k : Int) else k

/-- The exact sum; a zero sum is +0, and −0 only when both inputs are −0 (R334). -/
def Fv.add (a b : Fv) : Fv :=
  match a, b with
  | .nan, _ | _, .nan => .nan
  | .inf x, .inf y => if x = y then .inf x else .nan
  | .inf x, _ => .inf x
  | _, .inf y => .inf y
  | .fin na ma ea, .fin nb mb eb =>
    let e0 := min ea eb
    let t := signedAt na ma ea e0 + signedAt nb mb eb e0
    if t = 0 then .fin (ma = 0 && mb = 0 && na && nb) 0 0 else .ofInt t e0

/-- The exact product. -/
def Fv.mul (a b : Fv) : Fv :=
  match a, b with
  | .nan, _ | _, .nan => .nan
  | .inf x, .inf y => .inf (x != y)
  | .inf x, .fin n m _ | .fin n m _, .inf x => if m = 0 then .nan else .inf (x != n)
  | .fin na ma ea, .fin nb mb eb => .fin (na != nb) (ma * mb) (ea + eb)

/-- a < b for values that are no NaN, with −0 below +0 (R335). -/
def Fv.less (a b : Fv) : Bool :=
  match a, b with
  | .nan, _ | _, .nan => false
  | .inf x, .inf y => x && !y
  | .inf x, .fin _ _ _ => x
  | .fin _ _ _, .inf y => !y
  | .fin na ma ea, .fin nb mb eb =>
    let e0 := min ea eb
    let x := signedAt na ma ea e0
    let y := signedAt nb mb eb e0
    if ma = 0 && mb = 0 then na && !nb else x < y

/-! ### Rounding (R332 to R334, R468) -/

/-- The sign bit of a code. -/
def Ff.sign (f : Ff) (neg : Bool) : Nat := if neg then 2 ^ (f.eb + f.mb) else 0

/-- The code that overflow gives: infinity, or the largest magnitude of a format without one (R334). -/
def Ff.over (f : Ff) : Nat :=
  match f.top with
  | .ieee => (2 ^ f.eb - 1) * 2 ^ f.mb
  | .nanOnly => 2 ^ (f.eb + f.mb) - 2
  | .finite => 2 ^ (f.eb + f.mb) - 1

/-- The canonical NaN (R334). -/
def Ff.nanCode (f : Ff) : Nat :=
  match f.top with
  | .ieee => (2 ^ f.eb - 1) * 2 ^ f.mb + 2 ^ (f.mb - 1)
  | _ => 2 ^ (f.eb + f.mb) - 1

/-- The exponent of the last place of a magnitude in a format. -/
def Ff.place (f : Ff) (m : Nat) (e : Int) : Int := max (Nat.log2 m + e) (1 - f.bias) - f.mb

/-- Whether the magnitude goes up: to nearest with ties to even, or stochastically against `r` (R332, R333). -/
def roundsUp (m sh : Nat) (r : Option Nat) : Bool :=
  let rem := m % 2 ^ sh
  match r with
  | none => 2 * rem > 2 ^ sh || (2 * rem = 2 ^ sh && m / 2 ^ sh % 2 = 1)
  | some x => rem * 65536 / 2 ^ sh > x

/-- The magnitude's code before overflow is looked at. -/
def Ff.code (f : Ff) (m : Nat) (e : Int) (r : Option Nat) : Nat :=
  let q := f.place m e
  let sh := (q - e).toNat
  let k := if e ≥ q then m * 2 ^ (e - q).toNat else m / 2 ^ sh + num (sh != 0 && roundsUp m sh r)
  (q + f.mb + f.bias - 1).toNat * 2 ^ f.mb + k

/-- A value rounded once to a format; the flag tells whether the result is exceptional for a knead operation (R468). -/
def Ff.round (f : Ff) (v : Fv) (r : Option Nat) : Nat × Bool :=
  match v with
  | .nan => (f.nanCode, true)
  | .inf neg => (f.sign neg + f.over, false)
  | .fin neg m e =>
    if m = 0 then (f.sign neg, false)
    else
      let c := f.code m e r
      let tiny := Nat.log2 m + e < 1 - (f.bias : Int)
      let big := match f.top with
        | .nanOnly => decide (c > f.over)
        | _ => decide (c ≥ f.over)
      (f.sign neg + (if big then f.over else c), tiny || big)

/-- A code that is committed or returned without being rounded is exceptional when it is a NaN or subnormal (R468). -/
def Ff.odd (f : Ff) (x : Nat) : Bool :=
  match f.decode x with
  | .nan => true
  | .inf _ => false
  | .fin _ m e => m != 0 && decide (Nat.log2 m + e < 1 - (f.bias : Int))

/-! ### FP32 arithmetic of scans (R363, R364) -/

def rnd32 (v : Fv) : Word := BitVec.ofNat 32 (fp32.round v none).1
def val32 (w : Word) : Fv := fp32.decode w.toNat
def add32 (a b : Word) : Word := rnd32 ((val32 a).add (val32 b))
def mul32 (a b : Word) : Word := rnd32 ((val32 a).mul (val32 b))
def neg32 (a : Word) : Word := a ^^^ 0x80000000#32

/-- The larger of two floats; a NaN if either is one. -/
def max32 (a b : Word) : Word :=
  if (val32 a).isNan || (val32 b).isNan then 0x7FC00000 else if (val32 a).less (val32 b) then b else a

/-- `n` terms of the Taylor series of exp(−z) in units of two to the −328: `t` is the next term, `k` its number. -/
def expSeries (z : Nat) : Nat → Nat → Nat → Int → Int
  | 0, _, _, acc => acc
  | n + 1, k, t, acc => expSeries z n (k + 1) (t * z / 2 ^ 328 / (k + 1)) (if k % 2 = 0 then acc + t else acc - t)

/-- exp(−m·2^e) in units of two to the −328: the argument divided by 256, the series, and eight squarings. -/
def expFixed (m : Nat) (e : Int) : Nat :=
  let z := if e + 320 ≥ 0 then m * 2 ^ (e + 320).toNat else m / 2 ^ (-(e + 320)).toNat
  (List.range 8).foldl (fun v _ => v * v / 2 ^ 328) (expSeries z 60 0 (2 ^ 328) 0).toNat

/-- The float at or below exp(−m·2^e), for an argument that is not 0. -/
def expDown (m : Nat) (e : Int) : Nat :=
  if Nat.log2 m + e ≥ 8 then 0
  else
    let v := expFixed m e
    if v = 0 then 0
    else
      let q := fp32.place v (-328)
      (q + 23 + 127 - 1).toNat * 2 ^ 23 + v / 2 ^ (q + 328).toNat

/-- exp of an argument at or below 0 (R364): exact at 0 and −∞; otherwise one of the two floats about the exact value, which of
them the manual leaves open (assumption log 7). -/
def exp32 (x : Word) : Word :=
  match val32 x with
  | .nan => 0x7FC00000
  | .inf _ => 0
  | .fin _ m e => if m = 0 then 0x3F800000 else BitVec.ofNat 32 (expDown m e + num (Config.freeExpUp x))

/-- exp(a − b), the difference of two equal infinite values being 0 (R364). -/
def expDiff (a b : Word) : Word :=
  match val32 a, val32 b with
  | .inf x, .inf y => if x = y then 0x3F800000 else exp32 (add32 a (neg32 b))
  | _, _ => exp32 (add32 a (neg32 b))

end Sys2Proof.Machine
end

