-- ==== Sys2Proof/Machine/Ranges.lean ====
section
/-! DEFINITION. INV_RANGE and DIGEST (02 R46, 07 R477, 14 R428 and R429). -/
namespace Sys2Proof.Machine

/-! ### The lines of a range (R46) -/

/-- The line at an offset of a range request. -/
def Req.lineAt (r : Req) (o : Nat) : LineId := ⟨r.space, r.line.ln + BitVec.ofNat 45 o⟩

/-- The first offset from `o` on, of `n` offsets, whose line is homed here in bank group `g`. -/
def State.nextIn (s : State) (r : Req) (g : Nat) : Nat → Nat → Nat
  | 0, o => o
  | n + 1, o =>
    if s.homesHere (r.lineAt o) && s.bankOf (r.lineAt o) / 4 == g then o else s.nextIn r g n (o + 1)

/-- Where each bank group begins a range. -/
def State.rangeStarts (s : State) (r : Req) : List Nat := (List.range 4).map fun g => s.nextIn r g r.len.toNat 0

/-- The positions after bank group `g` has taken offset `o`. -/
def State.rangeOn (s : State) (r : Req) (g o : Nat) (next : List Nat) : List Nat :=
  upd next g fun _ => s.nextIn r g (r.len.toNat - (o + 1)) (o + 1)

/-- A line is free for a range request: no open entry, no loaf lock on its loaf, its value in its slot (R27, R190, R346). -/
def State.freeLine (s : State) (l : LineId) : Bool :=
  !s.transient l && s.unlocked (s.bankOf l) (loafOf l) && !s.knOf l

/-- Opens an entry for a line and lets it go on. -/
def State.openFor (s : State) (h : Ht) : State :=
  let i := (tabFree s.home.ht 512).getD 512
  (s.keep i (some h)).advance i h .ok

/-- A buffer-space line of a range request that lies outside every window (R303). -/
def State.outside (s : State) (l : LineId) : Bool := l.space && (s.windowOf l).isNone

/-! ### INV_RANGE (R477) -/

/-- INV_RANGE: the unit takes the next request. -/
def State.startInv (s : State) (r : Req) : State :=
  let s := { s with home.invQ := s.home.invQ.drop 1 }
  if s.deadReq r.name then ((s.freePay r false).tobit 3).ev 77
  else { s with home.invs := s.home.invs ++ [(⟨r, s.rangeStarts r, false, false, [], false⟩ : InvJob)] }.invFinish

def execInvRange (s : State) : Host.Outcome State Fault Refusal :=
  match s.home.invQ with
  | r :: _ => s.when s.coreUp (s.startInv r)
  | [] => .next s

/-- Entries an INV_RANGE holds open. -/
def State.invOpen (s : State) (r : Req) : Nat := s.openCount fun h => h.why = .inv r

/-- The line is taken: its snoop-filter entry is looked up, and a tracked line is recalled; the owner is OWN when it is not the
requester (R198, R238, R477). OWN answers the snoop even where it is the requester, since FWDID names the home (R228, R230). -/
def State.invLine (s : State) (j : InvJob) (g o : Nat) (c : Chk) : State :=
  let l := j.r.lineAt o
  let out := s.outside l
  let s := ((s.strike c).charge 4 j.r.cls 1).sfEcc l c.sf j.r.cls
  let s := if out then (s.pinErr 3).evq 97 5 else s
  let s := { s with home.invs := s.home.invs.map fun (i : InvJob) =>
    if i.r = j.r then { i with next := s.rangeOn j.r g o i.next, nowin := i.nowin || out } else i }
  if s.untracked l then (s.markLu l false).invFinish
  else
    let sop := if (s.ownerOf l).any fun a => j.r.agent != some a then snpUnique else snpInvalidate
    s.openFor (s.snooping (Ht.blank l (.inv j.r) .snpU) sop false none)

/-- INV_RANGE_LINE: the next line of bank group `g` of the `i`th INV_RANGE, in its turn. The turn of a line that has to wait falls
when this command takes it: requests for the line that arrived before are served first (DESIGN CHOICE: log 80). -/
def execInvRangeLine (i : Nat) (g : BitVec 2) (c : Chk) (s : State) : Host.Outcome State Fault Refusal := s.starting <|
  match s.home.invs[i]? with
  | some j =>
    let o := nth j.next g.toNat j.r.len.toNat
    let l := j.r.lineAt o
    s.when (o < j.r.len.toNat && s.freeLine l && (s.oldest l).isNone &&
      (s.untracked l || (s.invOpen j.r < 16 && s.home.ht.length < 512))) (s.invLine j g.toNat o c)
  | none => .next s

/-! ### DIGEST (R428, R429) -/

/-- H of a line (R428). -/
def lineDigest (l : LineId) (d : Line) : BitVec 64 := crustDown l d ++ crust l d

/-- DIGEST: the next request is taken when none is being served. -/
def State.startDig (s : State) (r : Req) : State :=
  let s := { s with home.digQ := s.home.digQ.drop 1 }
  if s.deadReq r.name then ((s.freePay r false).tobit 3).ev 77
  else { (s.ev 146) with home.dig := some ⟨r, s.rangeStarts r, 0, false, false, []⟩ }.digFinish

def execDigest (s : State) : Host.Outcome State Fault Refusal :=
  match s.home.digQ, s.home.dig with
  | r :: _, none => s.when s.coreUp (s.startDig r)
  | _, _ => .next s

/-- A line's digest joins the sum. -/
def State.digAdd (s : State) (j : DigJob) (g o : Nat) (l : LineId) (d : Line) (p : Bool) : State :=
  { (s.ev 147) with home.dig := some { j with sum := j.sum + lineDigest l d, pois := j.pois || p
                                              next := s.rangeOn j.r g o j.next } }.digFinish

/-- The line is read where it lies, or through a miss register, or is the zero line; an owner is asked first (R240, R303, R429).
OWN is asked also where it is the requester, whom R238 would not call an owner: R240 wants every dirty owner copy (DESIGN CHOICE, log
102). -/
def State.digLine (s : State) (j : DigJob) (g o : Nat) (c : Chk) : State :=
  let l := j.r.lineAt o
  let s := (((s.strike c).lookup l j.r.cls).charge 4 j.r.cls 1).sfEcc l c.sf j.r.cls
  let absent (s : State) : State :=
    if s.outside l then
      { ((s.pinErr 3).evq 97 5) with home.dig := some { j with next := s.rangeOn j.r g o j.next, nowin := true } }.digFinish
    else if l.space then (s.ev 103).digAdd j g o l 0 false
    else if !s.ring.mpUp then (s.ev 22).digAdd j g o l 0 true
    else
      let s := { (s.ev 147) with home.dig := some { j with next := s.rangeOn j.r g o j.next } }
      let i := (tabFree s.home.ht 512).getD 512
      let (s, h) := s.openMiss i (Ht.blank l (.digest j.r) .mem) j.r.cls false
      s.keep i (some h)
  if (s.ownerOf l).isSome then s.openFor (s.snooping (Ht.blank l (.digest j.r) .snpS) snpShared false none)
  else match s.find l with
    | none => absent s
    | some (k, i) =>
      match s.readOut k i c.ecc j.r.cls with
      | (s, none) => absent s
      | (s, some x) =>
        let (s, bad) := s.busReplay c.bus
        let s := if bad then s.scree (parExhaust (some l) j.r.cls.toNat j.r.name.src.toNat (busMask c.bus)) else s
        s.digAdd j g o l x.data (x.mt.psn || bad)

/-- DIGEST_LINE_READ: the next line of bank group `g`, when its bank serves no request first (R32). -/
def execDigestLineRead (g : BitVec 2) (c : Chk) (s : State) : Host.Outcome State Fault Refusal := s.starting <|
  match s.home.dig with
  | some j =>
    let o := nth j.next g.toNat j.r.len.toNat
    let l := j.r.lineAt o
    s.when (o < j.r.len.toNat && s.freeLine l && s.home.ht.length < 512 && s.bankFree (s.bankOf l) j.r.cls j.r.since) (s.digLine j g.toNat o c)
  | none => .next s

end Sys2Proof.Machine
end

