-- ==== Sys2Proof/Machine/Knead.lean ====
section
/-! DEFINITION. Knead operations: what a lane computes, wide accumulation, and the commit (11 R326 to
R351). -/
namespace Sys2Proof.Machine

/-! ### Elements and scalars (R327 to R335) -/

/-- Element `i` of width `w` of a line. -/
def elem (d : Line) (w i : Nat) : Nat := (d >>> (w * i : Nat)).toNat % 2 ^ w

/-- A line of elements of width `w`. -/
def fromElems (w : Nat) (l : List Nat) : Line := pack 1024 (((List.range l.length).map (w * ·)).zip l)

/-- The random value of element `i` (R333). -/
def srValue (x : BitVec 16) (i : Nat) : Nat := (x.rotateLeft (i % 16) ^^^ BitVec.ofNat 16 (i / 16 * 0x9E37)).toNat

/-- The smaller or larger of two floats (R335), with what R468 says of it (DEDUCED, assumption log 69). -/
def floatPick (f : Ff) (larger : Bool) (a b : Nat) : Nat × Bool :=
  let x := f.decode a
  let y := f.decode b
  if x.isNan || y.isNan then (f.nanCode, true)
  else
    let c := if x.less y == larger then b else a
    (c, f.odd c)

/-- A sum of two elements in their own format (R332, R334). -/
def elemAdd (kfmt a b : Nat) (r : Option Nat) : Nat × Bool :=
  if kfmt < 4 then ((a + b) % 2 ^ fmtBits kfmt, false)
  else (ffOf kfmt).round (((ffOf kfmt).decode a).add ((ffOf kfmt).decode b)) r

/-- The smaller or larger of two elements (R327, R335). -/
def elemPick (kfmt : Nat) (larger : Bool) (a b : Nat) : Nat × Bool :=
  let w := fmtBits kfmt
  if kfmt < 4 then (if (signedOf w a < signedOf w b) == larger then b else a, false) else floatPick (ffOf kfmt) larger a b

/-- A code committed or returned as it is (R468; DEDUCED, assumption log 69). -/
def elemOdd (kfmt x : Nat) : Bool := 4 ≤ kfmt && (ffOf kfmt).odd x

/-- The new value of a scalar target `w` with operands `a` and `b` (R327). -/
def scalarNew (op kfmt w a b : Nat) (r : Option Nat) : Nat × Bool :=
  match op with
  | 0 | 1 => elemAdd kfmt w a r
  | 2 => elemPick kfmt false w a
  | 3 => elemPick kfmt true w a
  | 4 => (Nat.min w a, false)
  | 5 => (Nat.max w a, false)
  | 6 => (w &&& a, false)
  | 7 => (w ||| a, false)
  | 8 => (w ^^^ a, false)
  | 9 => (a, elemOdd kfmt a)
  | _ => (if w = a then b else w, false)

/-- What an operation on a line gives: the line, the value returned, and how many exceptional values it commits and returns. -/
structure LineRes where
  line : Line
  rval : BitVec 64
  odd  : Nat

/-- A scalar operation at the word of the request (R327, R328). -/
def scalarOp (r : Req) (old op : Line) (x : Option Nat) : LineRes :=
  let w := fmtBits r.kfmt.toNat
  let at_ := 8 * (fld r.addr 0 7).toNat
  let v := (old >>> at_).toNat % 2 ^ w
  let (n, e) := scalarNew r.op r.kfmt.toNat v (elem op w 0) (elem op w 1) x
  let mask := (BitVec.allOnes 1024 >>> (1024 - w)) <<< at_
  { line := (old &&& ~~~mask) ||| (BitVec.ofNat 1024 n <<< at_)
    rval := if r.op = 1 then 0 else BitVec.ofNat 64 v
    odd := num e + if r.op = 1 then 0 else num (elemOdd r.kfmt.toNat v) }

/-- VADD, VMIN and VMAX (R327). -/
def vectorOp (r : Req) (old op : Line) (x : Option (BitVec 16)) : LineRes :=
  let k := r.kfmt.toNat
  let w := fmtBits k
  let els := (List.range (1024 / w)).map fun i =>
    let a := elem old w i
    let b := elem op w i
    if r.op = 0x10 then elemAdd k a b (x.map fun y => srValue y i) else elemPick k (r.op = 0x12) a b
  let ret := if r.fetch then ((List.range (1024 / w)).filter fun i => elemOdd k (elem old w i)).length else 0
  { line := fromElems w (els.map fun e => e.1), rval := 0, odd := (els.filter fun e => e.2).length + ret }

/-- The 32 operand elements of RACC, WACC and WCLOSE (R329). -/
def operands (kfmt : Nat) (op : Line) : List Fv :=
  (List.range 32).map fun i => elemValue kfmt (elem op (fmtBits kfmt) i) (elem op 8 127)

/-- RACC (R336). -/
def raccOp (r : Req) (old op : Line) (x : Option (BitVec 16)) : LineRes :=
  let els := ((List.range 32).zip (operands r.kfmt.toNat op)).map fun p =>
    fp32.round ((fp32.decode (elem old 32 p.1)).add p.2) (x.map fun y => srValue y p.1)
  { line := fromElems 32 (els.map fun e => e.1), rval := 0, odd := (els.filter fun e => e.2).length }

/-! ### Wide accumulation (R337 to R343) -/

/-- The sticky count after `k` more inexact elements (R341). -/
def stickyAdd (c : BitVec 24) (k : Nat) : BitVec 24 :=
  if c.toNat + k < 2 ^ 24 then BitVec.ofNat 24 (c.toNat + k) else Config.freeSticky (c.toNat + k)

/-- One element entered into accumulator `i` (R341). -/
def enter (f : FrameSet) (i : Nat) (acc : BitVec 128) (v : Fv) : FrameSet × BitVec 128 :=
  match v with
  | .fin neg m e =>
    if m != 0 && Nat.log2 m + e ≥ f.a.toInt + 31 then ({ f with ovf := setBit f.ovf i }, acc)
    else
      let k := e - f.a.toInt + 96
      let down := 2 ^ (-k).toNat
      let mag : Int := if k ≥ 0 then m * 2 ^ k.toNat else m / down
      let sum := acc.toInt + if neg then -mag else mag
      let f := if k < 0 && m % down != 0 then { f with sticky := stickyAdd f.sticky 1 } else f
      let f := if sum > 2 ^ 127 - 1 then { f with wraps := upd f.wraps i (· + 1) }
        else if sum < -(2 ^ 127) then { f with wraps := upd f.wraps i (· - 1) } else f
      (f, BitVec.ofInt 128 sum)
  | _ => ({ f with ovf := setBit f.ovf i }, acc)

/-- A contribution: its elements 0 to N − 1 entered (R341). -/
def enterAll (f : FrameSet) (accs : List (BitVec 128)) (vs : List Fv) : FrameSet × List (BitVec 128) :=
  (List.range f.n).foldl (fun p i =>
    let r := enter p.1 i (nth p.2 i 0) (nth vs i .nan)
    (r.1, upd p.2 i fun _ => r.2)) (f, accs)

/-- Width and format of a close (R337). -/
def closeFf (bf : Bool) : Ff := if bf then bf16 else fp32
def closeBits (bf : Bool) : Nat := if bf then 16 else 32

/-- One element of a close: its code, whether it overflowed, and whether it is exceptional (R342). -/
def closeElem (f : FrameSet) (i : Nat) (acc : BitVec 128) : Nat × (Bool × Bool) :=
  let ff := closeFf f.out
  if bit f.ovf i || nth f.wraps i 0 != 0 then (ff.nanCode, true, true)
  else
    let (c, e) := ff.round (Fv.ofInt acc.toInt (f.a.toInt - 96)) none
    (c, c % 2 ^ (ff.eb + ff.mb) == ff.over, e)

/-- The close: the target line, the overflow mask, and the exceptional values (R342). -/
def closeLine (f : FrameSet) (accs : List (BitVec 128)) (old : Line) : Line × (Word × Nat) :=
  let w := closeBits f.out
  (List.range f.n).foldl (fun p i =>
    let (c, o, e) := closeElem f i (nth accs i 0)
    let mask := (BitVec.allOnes 1024 >>> (1024 - w)) <<< (w * i : Nat)
    ((p.1 &&& ~~~mask) ||| (BitVec.ofNat 1024 c <<< (w * i : Nat)), if o then setBit p.2.1 i else p.2.1, p.2.2 + num e))
    (old, f.ovf, 0)

/-- The accumulators of a frame set, from the line buffer or from its frames (R338). -/
def State.accs (s : State) (f : FrameSet) : List (BitVec 128) :=
  (List.range f.n).map fun i =>
    let d := match s.lbFrame f.tgt (i / 8) with
      | some (_, e) => e.data
      | none => ((s.frame (nth f.keys (i / 8) 0)).map fun x => x.data).getD 0
    fld d (128 * (i % 8)) 128

/-- The accumulators written back into the line-buffer entries of the frames. -/
def State.putAccs (s : State) (f : FrameSet) (accs : List (BitVec 128)) : State :=
  (List.range (f.n / 8)).foldl (fun s k =>
    match s.lbFrame f.tgt k with
    | some (j, e) =>
      s.lbPut j { e with data := pack 1024 ((List.range 8).map fun i => (128 * i, (nth accs (8 * k + i) 0).toNat)), kn := true }
    | none => s) s

/-! ### The check and the commit (R326, R348 to R351) -/

/-- The check level has the lane check this request (R348). -/
def State.resChecked (s : State) (r : Req) : Bool := s.cfg.chk.level.toNat ≥ 2 || (s.cfg.chk.level = 1 && r.opc = 8)

/-- Lane cycles of an operation (R326, R341, R342). -/
def laneCycles (r : Req) (n : Nat) (closes : Bool) : Nat :=
  if r.op ≥ 0x19 then n / 8 + num closes else 1

/-- The reports of a residue check, and whether the rerun failed too (R349). KND_LAST.CAUSE has no code for a rerun that passed: it is
free (R353; log 58). -/
def State.residue (s : State) (r : Req) (x : Resid) (cycles : Nat) : State × Bool :=
  let s := (s.start (s.laneOf r.line)).charge 5 r.cls cycles
  if !s.resChecked r then (s, false)
  else
    let s := s.ev 114
    match x with
    | .pass => (s, false)
    | .fixed => (((((s.charge 5 r.cls cycles).ev 115).resRerun).kndRes 0).kndLast r (Config.freeCause 0).toNat, false)
    | .failed =>
      let s := ((((s.charge 5 r.cls cycles).ev 115).resRerun).kndRes 1).kndLast r 5
      ((s.suspect 2).scree { kind := 0x30, sev := 2, susp := true, line := some r.line, unit := 6, lane := s.laneOf r.line
                             cls := r.cls.toNat, agent := r.name.src.toNat, detail := r.kop.toNat + r.kfmt.toNat * 256 }, true)

/-- What an operation answers. -/
structure Answer where
  rval : BitVec 64
  pois : Bool
  data : Option (Line × Word) := none

/-- A result commits into the line's entry (R323, R351, R267): the tags of the writes to memory it caused. The result of a line
without a frame goes to memory, but for a buffer-space line, which memory never holds (R290, R346); KND_LAST.CAUSE has no code for
that and is free (R353; log 58). The write-back of a shadowed line has its tag and finds no loaf lock, which the command waits for
(R190, R291). -/
def State.commitLine (s : State) (r : Req) (i : Nat) (e : Lb) (d : Line) (psn : Bool) : State × List Nat :=
  let rel := r.rel && !r.ext
  let m : Meta := { e.mt with crust := crust r.line d, fit := fitOf d, d := !r.space, psn, rsv := rel
                              rscope := if rel then r.scope else 0 }
  if e.bare then
    let s := (s.lbDel i).kndErr r 5 (Config.freeCause 1).toNat
    if r.space then (s, [])
    else
      let (s, t) := s.hold r.line d psn (crust r.line d) r.cls .request
      (s, [t])
  else
    let s := (s.lbPut i { e with data := d, mt := m, kn := true }).slotKn e true
    if s.shadowed r.line then
      let w := s.lbWriteBack i r.cls
      (w.1, match w.2 with
        | .done t | .mem t => t.toList
        | _ => [])
    else (s, [])

/-- The commit of an operation needs a write tag: a memory-space line without a frame, or a shadowed one (R291, R346). -/
def State.commitWrites (s : State) (r : Req) : Bool :=
  s.shadowed r.line || (!r.space && (s.lbFind r.line).any fun p => p.2.bare)

/-- The release record of an operation that changes no contents of its target: a WOPEN, or a WACC that does not close (R267; log
59). -/
def State.recordRel (s : State) (r : Req) : State :=
  let g (m : Meta) : Meta := { m with rsv := true, rscope := r.scope }
  if !(r.rel && !r.ext) then s
  else
    let s := match s.lbFind r.line with
      | some (j, e) => s.lbPut j { e with mt := g e.mt }
      | none => s
    match s.find r.line with
    | some (k, i) => s.modMeta k i g
    | none => s

/-- The stochastic-rounding LFSR steps once for an operation that rounds with SR (R333). -/
def State.srStep (s : State) (r : Req) : State × Option (BitVec 16) :=
  if r.sr && srOp r.op && r.kfmt.toNat ≥ 4 then
    let x := lfsrStep s.knd.srLfsr
    ({ s with knd.srLfsr := x }.ev 112, some x)
  else (s, none)

/-- ATOMIC and RACC: an operation on the line in its entry. The old line that FETCH returns carries its own crust (R408). -/
def State.lineOp (s : State) (r : Req) (x : Resid) (i : Nat) (e : Lb) : State × (List Nat × Answer) :=
  let fs := s.payload r
  let op := payLine fs
  let (s, sr) := s.srStep r
  let res := if r.op ≤ 10 then scalarOp r e.data op (sr.map fun y => srValue y 0)
    else if r.op = 0x18 then raccOp r e.data op sr else vectorOp r e.data op sr
  let (s, failed) := s.residue r x 1
  let psn := e.mt.psn || payPois fs || failed
  let s := if failed then s else s.evk 113 0 res.odd
  let (s, ts) := s.commitLine r i e (if failed then e.data else res.line) psn
  let fetched := 0x10 ≤ r.op && r.op ≤ 0x12 && r.fetch
  (s, ts, { rval := if failed then 0 else res.rval, pois := psn
            data := if fetched then some (e.data, e.mt.crust) else none })

/-- The new frames: taken in the array and given free entries of the line buffer, numbered in order (R338, R339). -/
def State.openFrames (s : State) (l : LineId) (ks : List Nat) : State :=
  ((List.range ks.length).zip ks).foldl (fun s x =>
    (s.setFrame x.2 { (Frame.fresh l .rframe true) with slots := [] }).lbPut ((tabFree s.knd.lb 48).getD 48)
      { line := l, frame := some x.1, key := x.2, slot := 0, data := 0, mt := .clear, kn := true, bare := false, vic := none
        sel := false }) s

/-- WOPEN (R337, R339): `none` while line-buffer entries are missing. -/
def State.wopen (s : State) (r : Req) (x : Resid) : State × Option (List Nat × Answer) :=
  let fs := s.payload r
  let d := payLine fs
  let n := nselOf d
  match s.lbSpare (n / 8) r.cls (n / 8), tabFree s.knd.ft 512 with
  | (s, true), some i =>
    let ks := s.wopenFrames r.line (n / 8)
    let s := s.openFrames r.line ks
    let tgt := (s.lbFind r.line).map fun p => p.2
    let init := bit d 11
    let f0 : FrameSet := { tgt := r.line, cls := r.cls, a := fld d 0 8, n, out := bit d 10, init, expect := fld d 16 24, count := 0
                           sticky := 0, poison := payPois fs || (init && (tgt.map fun e => e.mt.psn).getD false), ovf := 0
                           wraps := List.replicate n 0, keys := ks }
    let (s, failed) := s.residue r x (n / 8)
    let zero := List.replicate n (0 : BitVec 128)
    let old := (tgt.map fun e => e.data).getD 0
    let vs := (List.range n).map fun j => (closeFf f0.out).decode (elem old (closeBits f0.out) j)
    let (f, accs) := if init && !failed then enterAll f0 zero vs else (f0, zero)
    let f := { f with poison := f.poison || failed }
    (({ s with knd.ft := tabPut s.knd.ft i f }.putAccs f accs).recordRel r |>.ev 109, some ([], { rval := 0, pois := f.poison }))
  | (s, _), _ => (s, none)

/-- The frames and the frame-table entry of a closed set are freed (R342). -/
def State.closeSet (s : State) (i : Nat) (f : FrameSet) : State := (s.dropSet i f).ev 110

/-- A close (R342, R350): `accs` and `f` hold the last contribution. -/
def State.wclose (s : State) (r : Req) (i : Nat) (f : FrameSet) (accs : List (BitVec 128)) (failed : Bool) (j : Nat) (e : Lb) :
    State × (List Nat × Answer) :=
  let (d, mask, odd) := closeLine f accs e.data
  let psn := f.poison || failed || (e.mt.psn && (f.init || f.n < 32 || failed))
  let s := s.closeSet i f
  let s := if failed then s else s.evk 113 0 odd
  let s := if !failed && mask != 0 then s.kndErr r 4 4 else s
  let (s, ts) := s.commitLine r j e (if failed then e.data else d) psn
  (s, ts, { rval := if failed then 0 else pack 64 [(0, mask.toNat), (32, f.sticky.toNat)], pois := psn })

/-- WACC and WCLOSE (R341, R342). The completion of one that does not close carries the poison bit of the set, whatever earlier contribution set it,
and not the PSN of the target, which it does not read; so does that of a WOPEN (R350 names no more; DESIGN CHOICE, log 107). -/
def State.wacc (s : State) (r : Req) (x : Resid) (i : Nat) (f : FrameSet) : State × (List Nat × Answer) :=
  let fs := s.payload r
  let closes := r.op = 0x1B || (f.expect != 0 && f.count + 1 = f.expect)
  let (s, failed) := s.residue r x (laneCycles r f.n closes)
  let accs := s.accs f
  let (f', accs') := if failed then (f, accs) else enterAll f accs (operands r.kfmt.toNat (payLine fs))
  let f' := { f' with count := f.count + 1, poison := f.poison || payPois fs || failed }
  match closes, s.lbFind r.line with
  | true, some (j, e) => s.wclose r i f' accs' failed j e
  | _, _ => (({ s with knd.ft := tabPut s.knd.ft i f' }.putAccs f' accs').recordRel r, [], { rval := 0, pois := f'.poison })

/-- What an operation in HT_KNEAD works on is in the line buffer. -/
def State.loaded (s : State) (r : Req) : Bool :=
  (!s.needsLine r (payLine (s.payload r)) || (s.lbFind r.line).isSome) &&
    ((r.op != 0x1A && r.op != 0x1B) || (s.frameSet r.line).any fun p =>
      (List.range p.2.keys.length).all fun k => (s.lbFrame r.line k).isSome)

/-- The operation of an entry in HT_KNEAD, its reports and its commit; `none` while line-buffer entries are missing. -/
def State.operate (s : State) (r : Req) (x : Resid) : State × Option (List Nat × Answer) :=
  match r.op with
  | 0x19 => s.wopen r x
  | 0x1A | 0x1B =>
    match s.frameSet r.line with
    | some p =>
      let y := s.wacc r x p.1 p.2
      (y.1, some y.2)
    | none => (s, none)
  | _ =>
    match s.lbFind r.line with
    | some p =>
      let y := s.lineOp r x p.1 p.2
      (y.1, some y.2)
    | none => (s, none)

/-- The request is answered and its entry closes (R252, R264, R327). An acquire is compared with the record as the commit left it
(R271). -/
def State.kneadEnd (s : State) (idx : Nat) (h : Ht) (r : Req) (ts : List Nat) (a : Answer) : State :=
  let (s, w) := s.acquire r
  let c : Comp := { r, rtype := if a.data.isSome then 1 else 0, rcode := 0, pois := a.pois || h.wbad, grant := 0, scopew := w, rval := a.rval
                    data := a.data }
  (((s.freePay r false).touchLu r).completeAfter c (h.tags ++ ts)).settle idx h none

/-- The frame set of an operation was discarded while it waited: ERR_FORMAT (R344, R413). -/
def State.setGone (s : State) (r : Req) : Bool := (r.op = 0x1A || r.op = 0x1B) && (s.frameSet r.line).isNone

/-- The operand of a knead operation crosses the bus to its lane: where that fails it is poisoned (R401; log 114). -/
def State.operandIn (s : State) (r : Req) : State :=
  let (s, w) := s.busMeet .knead (fun _ => some r.line) r.cls.toNat r.name.src.toNat
  let x := s.rx r.src
  if w = 0 then s
  else s.setRx r.src { x with pay := x.pay.map fun p =>
    if p.name = r.name then { p with flits := p.flits.map fun f => { f with pois := true } } else p }

/-- The line-buffer entries an operation works on are read: those of its line and of its frame set (R398, R413). -/
def State.meetLine (s : State) (r : Req) : State :=
  (s.knd.lb.filter fun e => e.2.line = r.line).foldl (fun s e => s.lbMeet e.1 r.cls) s

/-- The commit (R326): a frame set that can no longer be opened is refused (R339), and so is an operation on one that is gone; what an
error took out of the line buffer is loaded again (R413). -/
def State.commit (s : State) (idx : Nat) (h : Ht) (r : Req) (x : Resid) : State :=
  let s := (s.operandIn r).meetLine r
  match if r.op = 0x19 then s.wopenRefused r (payLine (s.payload r)) else none with
  | some i => ((s.kndErr r i i).refuse r 6).settle idx h none
  | none =>
    if s.setGone r then (((((s.kndErr r 0 0).ev 117).kndErr r 1 1).ev 111).refuse r 10).settle idx h none
    else if !s.loaded r then
      let y := s.kneadEnter idx h r .ok
      y.1.settle idx h y.2
    else match s.operate r x with
      | (s, none) => s
      | (s, some y) => (s.evq 104 r.op).kneadEnd idx h r y.1 y.2

/-- KNEAD_COMMIT, once no placement of another line holds the lock on the loaf of its line (R190). -/
def execKneadCommit (e : BitVec 9) (r : Resid) (s : State) : Host.Outcome State Fault Refusal := s.starting <|
  match tabGet s.home.ht e.toNat with
  | some h =>
    match h.why with
    | .req q => s.when (h.st = .knead && !h.lbw && s.lockOpen q.line && (!s.commitWrites q || s.freeTags != [])) (s.commit e.toNat h q r)
    | _ => .next s
  | none => .next s

end Sys2Proof.Machine
end

