-- ==== Sys2Proof/Machine/Scans.lean ====
section
/-! DEFINITION. Scans: the checks of a SCAN, the columns and their rows, and the results (12 R354 to R378); and when the line buffer
writes an entry back (11 R324). -/
namespace Sys2Proof.Machine

/-! ### Formats and rows (R356, R357) -/

/-- KFMT and VFMT of scans. -/
def scanFmt (f : Nat) : Bool := 4 ≤ f && f ≤ 14

def mxFmt (f : Nat) : Bool := 9 ≤ f

/-- Row size RB. -/
def rowBytes (f dim : Nat) : Nat := dim * fmtBits f / 8 + if mxFmt f then dim / 32 else 0

/-- Mc: score MACs per column per ACK cycle. -/
def macs (f : Nat) : Nat := if f = 4 then 64 else if f ≤ 6 then 128 else if f = 13 then 512 else 256

/-- Element `i` of a row of `dim` elements, with its scale applied (R356). -/
def rowElem (f dim row i : Nat) : Fv :=
  let w := fmtBits f
  elemValue f (row / 2 ^ (w * i) % 2 ^ w) (if mxFmt f then row / 2 ^ (8 * (dim * w / 8 + i / 32)) % 256 else 0)

/-- The query as row bits (R357). -/
def ScanJob.queryBits (j : ScanJob) : Nat :=
  ((List.range j.query.length).zip j.query).foldl (fun a p => a + p.2.toNat * 2 ^ (512 * p.1)) 0

/-! ### The checks of a SCAN (R358) -/

/-- The descriptor of a SCAN: the body of the payload flit with FIDX 0. -/
def scanDesc (fs : List PayFlit) : Body := ((fs.find? fun p => p.fidx = 0).map fun p => p.data).getD 0

/-- The query flits in order of FIDX. -/
def scanQuery (fs : List PayFlit) : List Body :=
  (List.range 14).filterMap fun i => (fs.find? fun p => p.fidx.toNat = i + 1).map fun p => p.data

/-- The first row of R358: the descriptor is in range. -/
def descOk (d : Body) (plen : Nat) : Bool :=
  let dim := descDim d
  let kb := rowBytes (descKfmt d) dim
  let vb := rowBytes (descVfmt d) dim
  let fin := match val32 (descScale d) with
    | .fin _ m _ => m != 0
    | _ => false
  fld d 124 4 = 0 && fld d 152 8 = 0 && fld d 184 8 = 0 && d >>> (224 : Nat) = 0 && descDsel d != 3 && scanFmt (descKfmt d) &&
    descKstr d ≤ 4 && kb ≤ descKstride d && descKbase d % descKstride d = 0 && descRowCount d != 0 && fin &&
    plen == 1 + (kb + 63) / 64 && descKbase d + descRows d * descKstride d ≤ 2 ^ 52 &&
    (!descFused d || (scanFmt (descVfmt d) && descVstr d ≤ 4 && vb ≤ descVstride d && descVbase d % descVstride d = 0 &&
      descVbase d + descRows d * descVstride d ≤ 2 ^ 52))

/-- The second row of R358: every lane has group S and the groups of the formats. -/
def State.scanLanes (s : State) (d : Body) : Bool :=
  (List.range 4).all fun n => s.laneHas n 5 && s.laneHas n (fmtGroup (descKfmt d)) &&
    (!descFused d || s.laneHas n (fmtGroup (descVfmt d)))

/-- A byte range lies inside one cairn, or inside one window (R358). -/
def State.pinnedRange (s : State) (space : Bool) (first len : Nat) : Bool :=
  if space then s.cfg.pin.windows.any fun w => w.first.toNat * 512 ≤ first && first + len ≤ (w.last.toNat + 1) * 512
  else s.pin.cairns.any fun p => p.2.holds first len

/-- The third row of R358. -/
def State.scanPinned (s : State) (r : Req) (d : Body) : Bool :=
  descEpoch d == s.ctl.epoch &&
    (descRows d = 0 || (s.pinnedRange r.space (descKey d 0) (descRows d * descKstride d) &&
      (!descFused d || s.pinnedRange r.space (descVal d 0) (descRows d * descVstride d))))

/-- The code of a SCAN that is refused (R358). -/
def State.scanCheck (s : State) (r : Req) (d : Body) : Option (BitVec 4) :=
  if !descOk d r.plen.toNat then some 11 else if !s.scanLanes d then some 10 else if !s.scanPinned r d then some 5 else none

/-! ### Columns (R359, R360, R376) -/

/-- The line that holds a byte of the scan's space. -/
def lineAtByte (space : Bool) (a : Nat) : LineId := ⟨space, BitVec.ofNat 45 (a / 128)⟩

/-- A row is scored here on column `n`: its loaf is homed at this slice in bank group `n`. -/
def State.rowHere (s : State) (space : Bool) (a n : Nat) : Bool :=
  let l := lineAtByte space a
  s.homesHere l && s.bankOf l / 4 == n

/-- The first row from `r` on, of `k` rows, that column `n` takes. -/
def State.rowFrom (s : State) (space : Bool) (d : Body) (n : Nat) : Nat → Nat → Nat
  | 0, r => r
  | k + 1, r => if s.rowHere space (descKey d r) n then r else s.rowFrom space d n k (r + 1)

/-- The state of a column before its first row (R364). -/
def ColBase.fresh (dim : Nat) : ColBase :=
  { scores := [], m := 0xFF800000, mexc := false, l := 0, o := List.replicate dim 0, folded := 0, pois := false }

/-- A column before its first row. -/
def Col.fresh (first dim : Nat) : Col :=
  { started := false, next := first, scores := [], m := 0xFF800000, mexc := false, l := 0, o := List.replicate dim 0, rows := 0
    folded := 0, held := [], base := .fresh dim, vlim := (0, 0), cycles := 0, pois := false, vsplit := false
    wait := none }

/-- A SCAN that passes its checks is queued for the columns (R376). -/
def State.scanAccept (s : State) (r : Req) (d : Body) (fs : List PayFlit) : State :=
  let cols := (List.range 4).map fun n =>
    Col.fresh (s.rowFrom r.space d n (descRows d) 0) (if descFused d then descDim d else 0)
  let s := (s.freePay r false).ev 118
  { s with knd.scans := s.knd.scans ++ [(⟨r, d, scanQuery fs, payPois fs, cols, [], []⟩ : ScanJob)] }

/-- A SCAN is refused (R358, R378). -/
def State.scanRefuse (s : State) (r : Req) (code : BitVec 4) : State :=
  let s := s.ev 130
  let s := if code = 11 then { s with knd.scerr := setBit s.knd.scerr 0 }
    else if code = 5 then { s with knd.scerr := setBit s.knd.scerr 1 }
    else (s.ev 117).kndErr r 0 0
  s.refuse r code

/-- SCAN: the next request is checked. -/
def State.startScan (s : State) (r : Req) : State :=
  let s := { s with home.scanQ := s.home.scanQ.drop 1 }
  if s.deadReq r.name then ((s.freePay r false).tobit 3).ev 77
  else
    let fs := s.payload r
    let d := scanDesc fs
    match s.scanCheck r d with
    | some code => s.scanRefuse r code
    | none => s.scanAccept r d fs

def execScan (s : State) : Host.Outcome State Fault Refusal :=
  match s.home.scanQ with
  | r :: _ => s.when (s.coreUp && s.knd.scans.length < 8) (s.startScan r)
  | [] => .next s

def ScanJob.rows (j : ScanJob) : Nat := descRows j.desc

def ScanJob.col (j : ScanJob) (n : Nat) : Col := nth j.cols n (Col.fresh 0 0)

/-- A column has rows of this scan left. -/
def ScanJob.left (j : ScanJob) (n : Nat) : Bool := (j.col n).next < j.rows

/-- A column is working on a scan (KND_SCST.COLBUSY). -/
def ScanJob.on (j : ScanJob) (n : Nat) : Bool := (j.col n).started && j.left n

/-- Changes one column of a scan. -/
def State.setCol (s : State) (i n : Nat) (c : Col) : State :=
  { s with knd.scans := upd s.knd.scans i fun j => { j with cols := upd j.cols n fun _ => c } }

/-- The queued scan a free column takes next: the highest current priority, then the earliest (R376). -/
def State.nextScan (s : State) (n : Nat) : Option (Nat × ScanJob) :=
  let l := ((List.range s.knd.scans.length).zip s.knd.scans).filter fun p => !(p.2.col n).started && p.2.left n
  l.foldl (fun a x => match a with
    | none => some x
    | some y => if s.prio x.2.r.cls > s.prio y.2.r.cls then some x else some y) none

/-- SCAN_COLUMN_START (R376). -/
def execScanColumnStart (col : BitVec 2) (s : State) : Host.Outcome State Fault Refusal :=
  let n := col.toNat
  match s.nextScan n with
  | some (i, j) => s.when (s.coreUp && s.knd.scans.all fun j => !j.on n) (s.setCol i n { j.col n with started := true })
  | none => .next s

/-! ### Reading a row (R361) -/

/-- The lines of a row. -/
def rowLines (space : Bool) (a bytes : Nat) : List LineId :=
  (List.range ((a + bytes - 1) / 128 - a / 128 + 1)).map fun i => lineAtByte space (a + 128 * i)

/-- What a line needs before it is read (R361). -/
inductive Need where
  | busy
  | kn
  | owner
  | miss
  | read
  deriving DecidableEq, Repr

def State.need (s : State) (l : LineId) : Need :=
  if s.transient l || !s.unlocked (s.bankOf l) (loafOf l) then .busy
  else if s.knOf l then .kn
  else if (s.ownerOf l).isSome then .owner
  else if !l.space && (s.find l).isNone && s.ring.mpUp then .miss
  else .read

/-- What a line of a scan's row needs: nothing when its fetch was ended by the memory port's fall. -/
def State.needOf (s : State) (j : ScanJob) (l : LineId) : Need := if j.lost.contains l then .read else s.need l

/-- A line is read where it lies, as the zero line, or as a poisoned line where the memory port is down or its fall ended the fetch.
`none` when a check of its lookup or of its read sent it back to memory: the row waits for a miss register (R207, R361). -/
def State.scanLine (s : State) (j : ScanJob) (l : LineId) (c : Chk) : State × Option (Line × Bool) :=
  let cls := j.r.cls
  let s := ((s.lookup l cls).charge 4 cls 1).sfEcc l c.sf cls
  if j.lost.contains l then (s, some (0, true)) else
  match s.find l with
  | none =>
    if l.space then (s.ev 103, some (0, false))
    else if s.ring.mpUp then (s, none)
    else (s.ev 22, some (0, true))
  | some (k, i) =>
    match s.readOut k i c.ecc cls with
    | (s, none) => if l.space then (s, some (0, false)) else (s, none)
    | (s, some x) =>
      let (s, bad) := s.busReplay c.bus
      let s := if bad then s.scree (parExhaust (some l) cls.toNat j.r.name.src.toNat (busMask c.bus)) else s
      (s, some (x.data, x.mt.psn || bad))

/-- The lines of a row, read in order: the row's bits and its poison. The finding concerns the first line; words struck elsewhere are
met by the reads that reach them (R207). -/
def State.readRow (s : State) (j : ScanJob) (a bytes : Nat) (c : Chk) : State × Option (Nat × Bool) :=
  let ls := rowLines j.r.space a bytes
  let r := ((List.range ls.length).zip ls).foldl (fun (p : State × Option (Nat × Bool)) x =>
    match p.2 with
    | none => p
    | some (v, q) =>
      match p.1.scanLine j x.2 (if x.1 = 0 then c else .ok) with
      | (s, some (d, b)) => (s, some (v + d.toNat * 2 ^ (1024 * x.1), q || b))
      | (s, none) => (s, none)) (s, some (0, false))
  (r.1, r.2.map fun v => (v.1 / 2 ^ (8 * (a % 128)), v.2))

/-! ### Scores (R363, R372) -/

/-- The exact sum of a block of 32 products (R363). -/
def blockSum (f dim row q b : Nat) : Fv :=
  let p (i : Nat) : Fv := (rowElem f dim row (32 * b + i)).mul (rowElem f dim q (32 * b + i))
  (List.range 31).foldl (fun a i => a.add (p (i + 1))) (p 0)

/-- T: the block sums rounded and added in ascending order (R363). -/
def scoreT (f dim row q : Nat) : Word :=
  (List.range (dim / 32 - 1)).foldl (fun a b => add32 a (rnd32 (blockSum f dim row q (b + 1)))) (rnd32 (blockSum f dim row q 0))

/-- The score, and whether it is exceptional (R468). -/
def scoreOf (d : Body) (row q : Nat) : Word × Bool :=
  let (c, e) := fp32.round ((val32 (descScale d)).mul (val32 (scoreT (descKfmt d) (descDim d) row q))) none
  (BitVec.ofNat 32 c, e || c % 2 ^ 31 == fp32.over)

/-- A magnitude. -/
def Fv.abs : Fv → Fv
  | .nan => .nan
  | .inf _ => .inf false
  | .fin _ m e => .fin false m e

/-- The largest finite element magnitude of a format (R331, R372). -/
def largest (f : Nat) : Fv :=
  if f = 14 then .fin false 127 (-6)
  else match (ffOf f).top with
    | .ieee => ((ffOf f).decode ((ffOf f).over - 1)).abs
    | _ => ((ffOf f).decode (ffOf f).over).abs

/-- KLIM of block `b` of a row (R372). -/
def blockLim (f dim row b : Nat) : Fv :=
  if mxFmt f then
    let sc := row / 2 ^ (8 * (dim * fmtBits f / 8 + b)) % 256
    if sc = 255 then .nan else (largest f).scale (sc - 127)
  else largest f

/-- 1 + 2⁻⁸. -/
def slack : Fv := .fin false 257 (-8)

/-- The bound of the score range (R372). -/
def scoreBound (d : Body) (row q : Nat) : Fv :=
  let f := descKfmt d
  let dim := descDim d
  let sum := (List.range (dim / 32)).foldl (fun (a : Fv) b =>
    let qabs := (List.range 32).foldl (fun (a : Fv) i => a.add (rowElem f dim q (32 * b + i)).abs) (Fv.fin false 0 0)
    a.add (qabs.mul (blockLim f dim row b))) (Fv.fin false 0 0)
  ((val32 (descScale d)).abs.mul sum).mul slack

/-- Some element or scale of the row or the query is a NaN. -/
def hasNan (f dim row q : Nat) : Bool :=
  (List.range dim).any fun i => (rowElem f dim row i).isNan || (rowElem f dim q i).isNan

/-- The score range check fails (R372). -/
def scoreFails (d : Body) (row q : Nat) (s : Word) : Bool :=
  match val32 s with
  | .nan => !hasNan (descKfmt d) (descDim d) row q
  | v => (scoreBound d row q).less v.abs

/-! ### The fold (R364) -/

/-- One row folded into a column: `v` is the value row, when it is homed here. -/
def foldRow (d : Body) (c : Col) (s : Word) (exc : Bool) (v : Option Nat) : Col :=
  let mn := max32 c.m s
  let k := expDiff c.m mn
  let p := expDiff s mn
  let o := (List.range (descDim d)).zip c.o |>.map fun x =>
    match v with
    | some row => add32 (mul32 x.2 k) (rnd32 ((val32 p).mul (rowElem (descVfmt d) (descDim d) row x.1)))
    | none => mul32 x.2 k
  { c with m := mn, mexc := if mn = c.m then c.mexc else exc, l := add32 (mul32 c.l k) p, o, folded := c.folded + 1 }

/-- The larger of two magnitudes m·2^e. -/
def maxMag (a b : Nat × Int) : Nat × Int :=
  if (Fv.fin false a.1 a.2).less (.fin false b.1 b.2) then b else a

/-- VLIM of a value row (R372): the largest over its blocks. -/
def rowLim (f dim row : Nat) : Nat × Int :=
  (List.range (dim / 32)).foldl (fun a b => match blockLim f dim row b with
    | .fin _ m e => maxMag a (m, e)
    | _ => a) (0, 0)

/-- A column takes a row: its score joins the others, or it is folded (R364, R369). -/
def Col.add (c : Col) (d : Body) (h : HeldRow) : Col :=
  if descFused d then { foldRow d c h.s h.exc h.v with pois := c.pois || h.pois }
  else { c with scores := c.scores ++ [(⟨h.row, if h.pois then 0x7FC00000 else h.s, h.pois, h.exc || h.pois⟩ : Score)]
                pois := c.pois || h.pois }

/-- A row whose rerun failed: poisoned, and folded no further (R374). -/
def Col.fail (c : Col) (d : Body) (row : Nat) : Col :=
  if descFused d then { c with pois := true }
  else { c with scores := c.scores ++ [(⟨row, 0x7FC00000, true, true⟩ : Score)], pois := true }

/-- The column after a check that passed: no row is held (R373). -/
def Col.checked (c : Col) : Col :=
  { c with held := [], base := { scores := c.scores, m := c.m, mexc := c.mexc, l := c.l, o := c.o, folded := c.folded
                                 pois := c.pois } }

/-- The column as it stood after the last check that passed (R374). -/
def Col.restored (c : Col) : Col :=
  { c with scores := c.base.scores, m := c.base.m, mexc := c.base.mexc, l := c.base.l, o := c.base.o, folded := c.base.folded
           pois := c.base.pois }

/-- The rows held are run again: those that `again` names failed, the others are released (R374). -/
def Col.rerun (c : Col) (d : Body) (again : BitVec 16) : Col :=
  (((List.range c.held.length).zip c.held).foldl (fun (a : Col) x => if bit again x.1 then a.fail d x.2.row else a.add d x.2)
    c.restored).checked

/-- The checks of a folded column fail: weight, running maximum, running sum, output (R372). -/
def foldFails (before after : Col) (s : Word) : Bool :=
  let one : Fv := .fin false 1 0
  let p := val32 (expDiff s after.m)
  let lim := ((val32 after.l).mul (.fin false after.vlim.1 after.vlim.2)).mul slack
  one.less p || p.less (.fin false 0 0) || (val32 after.m).less (val32 before.m) || (val32 after.l).less one ||
    (Fv.fin false after.folded 0).less (val32 after.l) || after.o.any fun x => lim.less (val32 x).abs

/-! ### A row on its column (R371 to R375) -/

/-- Column cycles of one row, in eighths (R375). -/
def rowCost (d : Body) : Nat :=
  let dim := descDim d
  if descFused d then Nat.max (Nat.max (8 * dim / macs (descKfmt d)) (8 * dim / 128)) ((descKstride d + descVstride d) / 32)
  else Nat.max (8 * dim / macs (descKfmt d)) (descKstride d / 32)

/-- The row is duplicated: at Full every row, at Standard every 16th a column takes and its last (R371). -/
def State.duplicates (s : State) (rows : Nat) (last : Bool) : Bool :=
  s.cfg.chk.level = 3 || (s.cfg.chk.level = 2 && ((rows + 1) % 16 = 0 || last))

/-- Column cycles are charged and counted when they begin (R446, event 129). -/
def State.columnBusy (s : State) (n : Nat) (cls : BitVec 4) (before after : Nat) : State :=
  let k := (after + 7) / 8 - (before + 7) / 8
  ((s.start (n % 4)).charge 6 cls k).evk 129 (n % 4) k

/-- `k` rows are run a second time on the next column (R373). -/
def State.duplicated (s : State) (n : Nat) (cls : BitVec 4) (k cost : Nat) : State :=
  { ((s.columnBusy (n + 1) cls 0 (k * cost)).evk 126 0 k) with knd.scdup := satAdd s.knd.scdup k }

def State.scChk (s : State) (i : Nat) : State := { s with knd.scchk := setBit s.knd.scchk i }

def State.scLast (s : State) (row n cause : Nat) : State :=
  { s with knd.sclast := pack 32 [(0, row), (24, n), (26, cause), (31, 1)] }

/-- What the checks of a row found: whether its two runs differed, whether a plausibility check failed, and the rows whose reruns disagree
again (R371, R372, R374). -/
structure RowFound where
  mis   : Bool
  imp   : Bool
  again : BitVec 16

/-- The checks of a row that failed, if any did. `plaus` is a plausibility check that the row's own values fail. -/
def State.rowFinding (s : State) (dup plaus : Bool) (seen : ScanSeen) : Option RowFound :=
  if s.cfg.chk.level.toNat < 2 then none
  else match seen with
    | .agree => if plaus then some ⟨false, true, 0⟩ else none
    | .mismatch a => if dup then some ⟨true, plaus, a⟩ else if plaus then some ⟨false, true, 0⟩ else none
    | .implausible a => some ⟨false, true, a⟩

/-- A row whose two runs disagree again: flagged, recorded and reported (R374). -/
def State.rowFailed (s : State) (j : ScanJob) (n row : Nat) : State :=
  (((s.scChk 2).scLast row n 2).suspect 3).scree
    { kind := 0x31, sev := 2, susp := true, line := some (lineAtByte j.r.space (descKey j.desc row)), unit := 7, lane := n
      cls := j.r.cls.toNat, detail := row }

/-- The reports of a failed check and of the reruns of the rows held, `c.held` with the present one last (R374). Each check that failed counts
once, and so does each rerun whose two runs disagree again (R378). -/
def State.rowsRerun (s : State) (j : ScanJob) (n : Nat) (c : Col) (x : RowFound) : State :=
  let k := c.held.length
  let again := x.again
  let s := { s with knd.scmis := satAdd s.knd.scmis (num x.mis + num x.imp + ((List.range k).filter fun i => bit again i).length) }
  let s := if x.imp then ((s.ev 127).scChk 0).scLast (((c.held.getLast?).map fun h => h.row).getD 0) n 1 else s
  let s := s.columnBusy n j.r.cls 0 (k * rowCost j.desc)
  let s := s.duplicated n j.r.cls k (rowCost j.desc)
  let s := if (List.range k).any fun i => !bit again i then s.scChk 1 else s
  ((List.range k).zip c.held).foldl (fun s x => if bit again x.1 then s.rowFailed j n x.2.row else s) s

/-- A row whose lines have been read is scored or folded. `v` is the value row, when it is homed here. -/
def State.scoreRow (s : State) (i n : Nat) (j : ScanJob) (seen : ScanSeen) (row : Nat) (key : Nat × Bool) (v : Option (Nat × Bool)) :
    State :=
  let c := j.col n
  let d := j.desc
  let next := s.rowFrom j.r.space d n (j.rows - (row + 1)) (row + 1)
  let dup := s.duplicates c.rows (next ≥ j.rows)
  let (x, exc) := scoreOf d key.1 j.queryBits
  let cost := rowCost d
  let s := (s.columnBusy n j.r.cls c.cycles (c.cycles + cost)).evq 120 (descKfmt d)
  let s := if dup then s.duplicated n j.r.cls 1 cost else s
  let split := descFused d && v.isNone
  let s := if split then { s with knd.scerr := setBit s.knd.scerr 2 } else s
  let h : HeldRow := { row, s := x, exc, v := v.map fun p => p.1, pois := key.2 || j.pois || (v.map fun p => p.2).getD false }
  let c := { c with next, wait := none, rows := c.rows + 1, held := c.held ++ [h], cycles := c.cycles + cost, vsplit := c.vsplit || split
                    vlim := match v with
                      | some p => maxMag c.vlim (rowLim (descVfmt d) (descDim d) p.1)
                      | none => c.vlim }
  let f := c.add d h
  match s.rowFinding dup (scoreFails d key.1 j.queryBits x || (descFused d && foldFails c f x)) seen with
  | some x => (s.rowsRerun j n c x).setCol i n (c.rerun d x.again)
  | none => s.setCol i n (if dup || s.cfg.chk.level.toNat < 2 then f.checked else f)

/-- The value row, when it is homed here (R359). -/
def State.valueHere (s : State) (j : ScanJob) (row : Nat) : Bool :=
  descFused j.desc && s.homesHere (lineAtByte j.r.space (descVal j.desc row))

/-- The lines a row reads: those of its key row, then of its value row. -/
def State.needLines (s : State) (j : ScanJob) (row : Nat) : List LineId :=
  let d := j.desc
  rowLines j.r.space (descKey d row) (rowBytes (descKfmt d) (descDim d)) ++
    if s.valueHere j row then rowLines j.r.space (descVal d row) (rowBytes (descVfmt d) (descDim d)) else []

/-- The lines of a row that were supplied as poisoned have been used. -/
def State.usedLost (s : State) (i : Nat) (ls : List LineId) : State :=
  { s with knd.scans := upd s.knd.scans i fun j => { j with lost := j.lost.filter fun l => !ls.contains l } }

/-- Every line is ready: the row is read and scored. -/
def State.takeRow (s : State) (i n : Nat) (j : ScanJob) (seen : ScanSeen) (kc vc : Chk) : State :=
  let d := j.desc
  let row := (j.col n).next
  let vh := s.valueHere j row
  let ls := s.needLines j row
  match ((s.strike kc).strike vc).readRow j (descKey d row) (rowBytes (descKfmt d) (descDim d)) kc with
  | (s, none) => s
  | (s, some key) =>
    if vh then
      match s.readRow j (descVal d row) (rowBytes (descVfmt d) (descDim d)) vc with
      | (s, none) => s
      | (s, some v) => (s.scoreRow i n j seen row key (some v)).usedLost i ls
    else (s.scoreRow i n j seen row key none).usedLost i ls

/-- The first line of a row that needs something before it is read. -/
def State.firstNeed (s : State) (j : ScanJob) (row : Nat) : Option (LineId × Need) :=
  ((s.needLines j row).map fun l => (l, s.needOf j l)).find? fun p => p.2 != .read

/-- The banks of a row's lines serve no request before the scan's reads (R32, R361). -/
def State.rowServed (s : State) (j : ScanJob) (row : Nat) : Bool :=
  (s.needLines j row).all fun l => s.bankFree (s.bankOf l) j.r.cls j.r.since

/-- A row begins to wait on a line: event `e` counts the wait once (R451). -/
def State.rowWait (s : State) (i n : Nat) (j : ScanJob) (l : LineId) (e : Nat) : State :=
  if (j.col n).wait = some (l, e) then s else (s.setCol i n { j.col n with wait := some (l, e) }).ev e

/-- A row opens an entry for a line, event `e`, and waits on that entry without a further count. -/
def State.rowOpens (s : State) (i n : Nat) (j : ScanJob) (l : LineId) (e : Nat) : State :=
  (s.setCol i n { j.col n with wait := some (l, 122) }).ev e

/-- A row waits, opens what a line of it needs, or is read (R361). -/
def State.scanRow (s : State) (i n : Nat) (j : ScanJob) (seen : ScanSeen) (kc vc : Chk) : State :=
  match s.firstNeed j (j.col n).next with
  | none => if s.rowServed j (j.col n).next then s.takeRow i n j seen kc vc else s
  | some (l, .busy) => s.rowWait i n j l 122
  | some (l, .kn) => s.rowWait i n j l 123
  | some (l, .owner) =>
    if s.home.ht.length < 512 then (s.rowOpens i n j l 124).openFor (s.snooping (Ht.blank l (.scan j.r) .snpS) snpShared false none) else s
  | some (l, _) =>
    match tabFree s.home.ht 512 with
    | none => s
    | some e =>
      let (s, h) := (s.rowOpens i n j l 125).openMiss e (Ht.blank l (.scan j.r) .mem) j.r.cls false
      s.keep e (some h)

/-- The scan a column is working on. -/
def State.scanOn (s : State) (n : Nat) : Option (Nat × ScanJob) :=
  ((List.range s.knd.scans.length).zip s.knd.scans).find? fun p => p.2.on n

/-- SCAN_ROW. -/
def execScanRow (col : BitVec 2) (seen : ScanSeen) (kc vc : Chk) (s : State) : Host.Outcome State Fault Refusal := s.starting <|
  match s.scanOn col.toNat with
  | some (i, j) => s.when s.coreUp (s.scanRow i col.toNat j seen kc vc)
  | none => .next s

/-! ### Results (R365 to R370) -/

/-- The columns that held rows, combined in ascending order (R365). -/
def mergeCols (cs : List Col) (dim : Nat) : Col :=
  cs.foldl (fun (a : Col) (c : Col) =>
    if c.rows = 0 || c.l = 0 then a
    else
      let mn := max32 a.m c.m
      let x := expDiff a.m mn
      let y := expDiff c.m mn
      { a with m := mn, mexc := if mn = a.m then a.mexc else c.mexc, l := add32 (mul32 a.l x) (mul32 c.l y)
               o := (a.o.zip c.o).map fun p => add32 (mul32 p.1 x) (mul32 p.2 y) }) (Col.fresh 0 dim)

/-- A returned FP32 value is exceptional: NaN, infinite or subnormal (R468). -/
def wordOdd (w : Word) : Bool :=
  match val32 w with
  | .inf _ => true
  | _ => fp32.odd w.toNat

/-- An output element in the OUT format (R365). -/
def outCode (bf : Bool) (w : Word) : Nat := if bf then (bf16.round (val32 w) none).1 else w.toNat

/-- The bytes of a value, lowest first. -/
def leBytes (n v : Nat) : List Byte := (List.range n).map fun i => BitVec.ofNat 8 (v / 2 ^ (8 * i))

/-- One entry of the result stream: its bytes, whether it is poisoned, exceptional, and its row. -/
structure Entry where
  bytes : List Byte
  pois  : Bool
  exc   : Bool
  row   : Nat

/-- The scores in ascending row index (R369). -/
def ScanJob.scores (j : ScanJob) : List Score :=
  earliest (fun (x : Score) => x.row) (j.cols.foldl (fun a c => a ++ c.scores) [])

/-- The stream of a dot-scan (R369, R370). -/
def ScanJob.dotEntries (j : ScanJob) : List Entry :=
  let bf := descBf16 j.desc
  j.scores.map fun x =>
    { bytes := leBytes (if bf then 2 else 4) (outCode bf x.s), pois := x.pois, row := x.row
      exc := x.exc || (bf && (bf16.round (val32 x.s) none).2) || wordOdd x.s }

/-- The stream of a partial (R369, R370). -/
def ScanJob.partEntries (j : ScanJob) : List Entry :=
  let bf := descBf16 j.desc
  let c := mergeCols j.cols (descDim j.desc)
  let p := j.cols.any fun c => c.pois || c.vsplit
  let odd (w : Word) : Bool := wordOdd w || (bf && (bf16.round (val32 w) none).2)
  (⟨leBytes 4 c.m.toNat, p, c.mexc || wordOdd c.m, 0⟩ : Entry) :: ⟨leBytes 4 c.l.toNat, p, wordOdd c.l, 0⟩ ::
    ⟨leBytes 8 0, p, false, 0⟩ :: c.o.map fun w => ⟨leBytes (if bf then 2 else 4) (outCode bf w), p, odd w, 0⟩

/-- Entries cut into segments of at most 944 bytes; `n` bounds their number (R367). -/
def segments (per : Nat) : Nat → List Entry → List (List Entry)
  | 0, l => [l]
  | n + 1, l => if l.length ≤ per then [l] else l.take per :: segments per n (l.drop per)

/-- The segments of a scan's result: of a dot-scan by whole scores, of a partial by bytes (R367, R369). -/
def ScanJob.segs (j : ScanJob) : List (List Entry) :=
  if descFused j.desc then
    let bytes := j.partEntries.foldl (fun a e => a ++ e.bytes.map fun b => (⟨[b], e.pois, e.exc, 0⟩ : Entry)) []
    segments 944 bytes.length bytes
  else
    let es := j.dotEntries
    segments (if descBf16 j.desc then 472 else 236) es.length es

/-- The DAT flits of a segment: its header, then its bytes (R367, R368, R370). -/
def segFlits (r : Req) (dkind : Nat) (hdr : BitVec 128) (es : List Entry) : List Flit :=
  let n := r.name
  let bytes := bytesOf hdr 16 ++ es.foldl (fun a e => a ++ e.bytes) []
  let pois := List.replicate 16 false ++ es.foldl (fun a e => a ++ e.bytes.map fun _ => e.pois) []
  let k := (bytes.length + 63) / 64
  (List.range k).map fun i =>
    let b := (bytes.drop (64 * i)).take 64
    datFlit n.sty n.src n i (i + 1 == k) dkind (((pois.drop (64 * i)).take 64).any fun x => x) false 0
      (pack 512 (((List.range b.length).map fun q => 8 * q).zip (b.map fun x => x.toNat)))

/-- Sends one segment (R367). `off` is its stream offset, `rows` the count its LAST header names. -/
def State.sendSegment (s : State) (j : ScanJob) (off rows : Nat) (last : Bool) (es : List Entry) : State :=
  let len := es.foldl (fun a e => a + e.bytes.length) 0
  let hdr : BitVec 128 := pack 128 [(0, off), (32, len), (42, num last), (43, num (es.any fun e => e.pois)),
    (44, num (es.any fun e => e.exc)), (45, num (last && j.cols.any fun c => c.vsplit)),
    (48, ((es.head?).map fun e => e.row).getD 0), (72, if last then rows else 0)]
  let fs := segFlits j.r (if descFused j.desc then 5 else 4) hdr es
  let n := j.r.name
  let p := fs.any fun f => bit f 64
  let s := (s.ev 121).send { port := portOf j.r.src, cls := j.r.cls, vc := 2, link := none, line := none, own := true, sad := false, pay := []
                             sample := false
                             flits := [rspFlit n.sty n.src n 1 0 p 0 fs.length false 0 0] }
  s.send { port := portOf j.r.src, cls := j.r.cls, vc := 3, link := none, line := none, own := true, sad := false, pay := []
           sample := false, flits := fs }

/-- The result of a scan leaves, and the scan completes (R367, R377). -/
def State.scanDone (s : State) (i : Nat) (j : ScanJob) : State :=
  let segs := j.segs
  let rows := j.cols.foldl (fun a c => a + c.rows) 0
  let odd := ((if descFused j.desc then j.partEntries else j.dotEntries).filter fun e => e.exc).length
  let s := s.evk 128 0 odd
  let s := if j.cols.any fun c => c.vsplit then s.ev 131 else s
  let r := ((List.range segs.length).zip segs).foldl (fun (p : State × Nat) x =>
    (p.1.sendSegment j p.2 rows (x.1 + 1 == segs.length) x.2, p.2 + x.2.foldl (fun a e => a + e.bytes.length) 0)) (s, 0)
  { (r.1.ev 119) with knd.scans := s.knd.scans.eraseIdx i }

/-- SCAN_COMPLETE: the earliest scan whose columns have taken their last rows, once the memory writes of the data its snoops brought
are complete (R291). -/
def execScanComplete (s : State) : Host.Outcome State Fault Refusal :=
  match ((List.range s.knd.scans.length).zip s.knd.scans).find? fun p => (List.range 4).all fun n => !p.2.left n with
  | some (i, j) => s.when (s.coreUp && s.heldTags j.tags = []) (s.scanDone i j)
  | none => .next s

/-! ### Write-backs of the line buffer (R154, R324) -/

/-- A walk has reached the frame of a line whose value is in the line buffer: a pin or unpin walk, a demotion step, a way-closing
visit, or the tag walk of an epoch switch (R324). -/
def State.walkReaches (s : State) (e : Lb) : Bool :=
  let b := keyBank e.key
  (s.pin.walk.any fun w => nth w.pos b 12288 < 12288 && w.next b == e.key && (s.walkLines w b).any fun x => x.2 = e.line) ||
  ((List.range 16).any fun c => bit s.pin.demote c &&
    ((s.pinning (BitVec.ofNat 4 c)).head?).any fun p => p.2.covers e.line && s.cairnFrame p.2 = some e.key) ||
  ((nth s.arr.closing b none).any fun c => frameKey b c.set c.way == e.key) ||
  (s.ctl.busy && b * 12288 + nth s.pin.epTag b 12288 == e.key && s.changesHome e.line)

/-- The request other than ATOMIC and REDUCE that is to be taken next for a line whose value is in the line buffer: the oldest at the home
engine, which takes them in order of arrival (R27), or one whose next line it is: an INV_RANGE, behind which no request waits, the DIGEST
in service, or a scan (R324, R346, R361). -/
def State.lineWanter (s : State) (l : LineId) : Option Req :=
  let at_ (r : Req) (next : List Nat) : Bool := (List.range 4).any fun g =>
    nth next g r.len.toNat < r.len.toNat && r.lineAt (nth next g 0) = l
  let inv := if (s.oldest l).isSome then none else s.home.invs.find? fun j => at_ j.r j.next
  ((s.oldest l).filter fun r => r.opc != 8 && r.opc != 9).orElse fun _ =>
    (inv.map fun j => j.r).orElse fun _ =>
      ((s.home.dig.filter fun (j : DigJob) => at_ j.r j.next).map fun j => j.r).orElse fun _ =>
        (List.range 4).findSome? fun n => ((s.scanOn n).filter fun p => (s.needLines p.2 (p.2.col n).next).contains l).map fun p => p.2.r

def State.lineWanted (s : State) (l : LineId) : Bool := (s.lineWanter l).isSome

/-- A line-buffer entry is written back now (R324): the slice is being quieted, or a request or a walk waits for its line. -/
def State.lbDue (s : State) (e : Lb) : Bool :=
  s.ctl.st = .quiescing || s.ctl.st = .draining || (e.frame.isNone && (s.lineWanted e.line || s.walkReaches e))

/-- The class of a write-back: that of the request that waits for the line, or ICLASS (R379). -/
def State.lbClass (s : State) (e : Lb) : BitVec 4 := ((s.lineWanter e.line).map fun r => r.cls).getD s.iclass

/-- No operation is ordered on an entry's line or frame set. -/
def State.lbFree (s : State) (e : Lb) : Bool := !s.home.ht.any fun p => p.2.line = e.line && p.2.st = .knead

/-- LINE_BUFFER_WRITEBACK: while it waits for write tags or a loaf lock, the entry keeps the victim selected (R194). -/
def execLineBufferWriteback (i : BitVec 6) (s : State) : Host.Outcome State Fault Refusal := s.starting <|
  match tabGet s.knd.lb i.toNat with
  | some e => s.when (e.kn && !e.bare && s.lbDue e && s.lbFree e) (s.lbWriteBack i.toNat (s.lbClass e)).1
  | none => .next s

end Sys2Proof.Machine
end

