-- ==== Sys2Proof/Machine/Integrity.lean ====
section
/-! DEFINITION. Scrub, the window of corrected errors, way closing, and proof patterns (06 R210 to R213, 14 R417, R422 to R424,
R430). -/
namespace Sys2Proof.Machine

/-! ### Scrub (R417) -/

/-- Scrub runs in the present state (CHK_SCRUB.ACTIVE). -/
def State.scrubbing (s : State) : Bool :=
  s.cfg.chk.scrubEn && (s.ctl.st = .running || s.ctl.st = .quiesced || s.ctl.st = .drained)

/-- The frame of a bank that scrub visits next, in way-major order. -/
def State.scrubKey (s : State) (bank : Nat) : Nat := frameKey bank (s.chk.pos % 768) (s.chk.pos / 768)

/-- Scrub skips a frame that holds a line in a home transient state or under a loaf lock. -/
def State.scrubSkips (s : State) (k : Nat) : Bool :=
  (s.linesAt k fun l => s.transient l || !s.unlocked (keyBank k) (loafOf l)) != []

/-- A word of a frame that scrub finds bad. -/
def State.scrubFrame (s : State) (k i : Nat) (e : Ecc) : State :=
  match s.setOfFrame k with
  | some (_, f) => s.rframeEcc f.tgt k i e s.iclass
  | none => s.arrEcc k i e s.iclass

/-- A visit meets the words of a frame that upsets have struck: tag and metadata words, and data words of valid slots. -/
def State.scrubMeet (s : State) (k : Nat) : State :=
  match s.setOfFrame k with
  | some (_, f) => s.rframeMeet f.tgt k s.iclass
  | none => s.meet k (fun j e => tagWord e || (s.frame k).any fun f => f.valid.any fun i => wordIn f.fmt i j e) s.iclass

/-- One finding of a scrub step. An uncorrectable word of the line buffer or the frame table sets CHK_ERR.UE also where the entry is empty
(R433). -/
def State.scrubOne (s : State) (x : ScrubFind) : State :=
  let count (e : Store) : State := match e with
    | .clean => s
    | .ce => s.ceCount
    | _ => s.ueCount
  let emptied (e : Store) : State := match e with
    | .ueData _ | .uePlace _ => (count e).chkErr 5
    | _ => count e
  match x with
  | .frame bank slot e =>
    let k := s.scrubKey bank.toNat
    if !bit s.ctl.insvc bank.toNat || s.scrubSkips k then s else s.scrubFrame k slot.toNat e
  | .sf way e =>
    let k := s.chk.sfPos * 16 + way.toNat
    match tabGet s.home.sf k, e with
    | some _, .ueData synd | some _, .uePlace synd => s.sfUe k synd s.iclass
    | _, _ => count e
  | .frameTable e =>
    match tabGet s.knd.ft s.chk.ftPos with
    | some f => s.ftEcc f.tgt e
    | none => emptied e
  | .lineBuffer e =>
    match tabGet s.knd.lb s.chk.lbPos, e with
    | some b, .ueData synd => if b.frame.isSome then s.ftEcc b.line (.ueData synd) else s.lbUe s.chk.lbPos b false synd s.iclass
    | some b, .uePlace synd => s.lbUe s.chk.lbPos b true synd s.iclass
    | some _, _ => count e
    | none, _ => emptied e

/-- The array reads of a step: every valid slot of the frames visited, with what they meet (R417, R446). -/
def State.scrubReads (s : State) : State :=
  (List.range 16).foldl (fun (s : State) b =>
    let k := s.scrubKey b
    if !bit s.ctl.insvc b then s
    else if s.scrubSkips k then s.ev 145
    else match s.frame k with
      | some f => ((List.range (if f.fmt = .rframe then 1 else f.valid.length)).foldl (fun (s : State) _ =>
          s.xfer k 1 s.iclass (if f.fmt = .rframe then .raw else f.fmt)) s).scrubMeet k
      | none => s.scrubMeet k) s

/-- The positions after a step. -/
def State.scrubOn (s : State) : State :=
  { s with chk.pos := (s.chk.pos + 1) % 12288, chk.pass := if s.chk.pos = 12287 then s.chk.pass + 1 else s.chk.pass
           chk.sfPos := (s.chk.sfPos + 1) % 8192, chk.ftPos := (s.chk.ftPos + 1) % 512, chk.lbPos := (s.chk.lbPos + 1) % 48 }

/-- SCRUB_STEP. -/
def execScrubStep (fs : List ScrubFind) (s : State) : Host.Outcome State Fault Refusal := s.starting <|
  s.when (s.coreUp && s.scrubbing) ((fs.foldl State.scrubOne (((s.ev 144).scrubReads).lbMeet s.chk.lbPos s.iclass)).scrubOn)

/-- ERROR_WINDOW_END (R210, R430). -/
def execErrorWindowEnd (s : State) : Host.Outcome State Fault Refusal :=
  s.when (s.coreUp && fld s.ring.powcyc 0 30 = 0)
    { s with arr.ceCnt := [], chk.resWin := 0, chk.parWin := 0, chk.resRaised := false, chk.parRaised := false }

/-! ### Closing a way (R211 to R213) -/

/-- The frame of the closing way's next set has been visited. -/
def State.wayVisit (s : State) (b : Nat) (c : Closing) : State :=
  { (s.evictFrame (frameKey b c.set c.way) s.iclass (.wayClose b)) with
    arr.closing := upd s.arr.closing b fun _ => some { c with set := c.set + 1 } }

/-- Every set is visited and its writes are complete: the way is disabled (R212 step 4). -/
def State.wayShut (s : State) (b : Nat) (c : Closing) : State :=
  { s with arr.closing := upd s.arr.closing b fun _ => none, arr.waydis := upd s.arr.waydis b fun w => setBit w c.way
           arr.err := setBit s.arr.err 0 }.scree { kind := 0x50, sev := 0, bank := b, way := c.way }

/-- WAY_CLOSE_VISIT. -/
def execWayCloseVisit (bank : BitVec 4) (s : State) : Host.Outcome State Fault Refusal := s.starting <|
  let b := bank.toNat
  match nth s.arr.closing b none with
  | none => .next s
  | some c =>
    let k := frameKey b c.set c.way
    if c.set < 768 then s.when (s.coreUp && s.eligible k true && s.evictRoom k s.iclass) (s.wayVisit b c)
    else s.when (s.coreUp && !s.mp.hold.any fun w => w.cause = .wayClose b) (s.wayShut b c)

/-! ### Proof patterns (R422 to R424) -/

/-- Word `w` of a pattern slot. -/
def State.patWord (s : State) (slot w : Nat) : Word := (tabGet s.chk.pat (32 * slot + w)).getD 0

/-- The fields of word `w` of a pattern slot: reserved bits ignore what is written (R8, R422). -/
def patFields (w : Nat) : Word :=
  if w = 0 then 0x0FFF01FF else if w = 5 then 0x000001FF else if 6 ≤ w && w ≤ 15 then 0 else 0xFFFFFFFF

/-- A write of the pattern store: the word, and a run of its slot under way is void. -/
def State.patWrite (s : State) (i : Nat) (d : Word) : State :=
  let d := d &&& patFields (i % 32)
  { s with chk.pat := if d = 0 then tabDel s.chk.pat i else tabPut s.chk.pat i d
           chk.patVoid := s.chk.patVoid || (s.chk.patDue.map fun x => x / 4 == i / 32).getD false }

/-- A pair (slot, lane) takes part in the round. -/
def State.patPair (s : State) (x : Nat) : Bool := bit (s.patWord (x / 4) 0) 0 && bit (s.patWord (x / 4) 0) (3 + x % 4)

/-- The next pair of the round. -/
def State.patNextPair (s : State) : Option Nat :=
  ((List.range 256).find? fun x => s.chk.patNext ≤ x && s.patPair x).orElse fun _ => (List.range 256).find? s.patPair

/-- Patterns run in the present state (R423). -/
def State.patRuns (s : State) : Bool :=
  s.cfg.chk.patEn && (s.ctl.st = .running || (s.ctl.st = .quiesced && !s.ctl.busy) || s.ctl.st = .drained)

/-- PATTERN_RUN_DUE. -/
def execPatternRunDue (s : State) : Host.Outcome State Fault Refusal :=
  match s.patNextPair with
  | some x => s.when (s.patRuns && s.chk.patDue.isNone)
      { s with chk.patDue := some x, chk.patNext := (x + 1) % 256, chk.patVoid := false }
  | none => .next s

/-- KIND of a slot. -/
def State.patKind (s : State) (slot : Nat) : Nat := (fld (s.patWord slot 0) 1 2).toNat

/-- A generated line (R422). -/
def genLine (seed : BitVec 16) : Line :=
  ((List.range 128).foldl (fun (p : BitVec 16 × Line) j =>
    let x := lfsrStep p.1
    (x, p.2 ||| ((fld x 0 8).setWidth 1024 <<< (8 * j : Nat)))) (seed, 0)).2

/-- The target or operand line of a slot: X twice, or generated. -/
def State.patLine (s : State) (slot bit_ lo : Nat) : Line :=
  if bit (s.patWord slot 0) bit_ then
    let x := pack 512 ((List.range 16).map fun k => (32 * k, (s.patWord slot (16 + k)).toNat))
    x ++ x
  else genLine (fld (s.patWord slot 1) lo 16)

/-- The request whose operation a slot describes. -/
def State.patReq (s : State) (slot : Nat) : Req :=
  let op := (fld (s.patWord slot 0) 16 5).toNat
  { name := ⟨true, s.ring.tieSlice, 0⟩, src := .ring, opc := if 0x18 ≤ op then 9 else 8, space := true, cls := s.iclass, scope := 0
    vol := false, rel := false, acq := false, luse := false, stepm := false, ext := false, land := false, lfin := false
    lgrp := 0, plen := 2, crv := false, since := 0, full := false, addr := BitVec.ofNat 52 (128 * slot), crust := 0, esrc := 0, lcnt := 0
    kop := fld (s.patWord slot 0) 16 8, kfmt := fld (s.patWord slot 0) 24 4, len := 0, mask := 0 }

/-- A slot is run on a lane (R424): no reserved value, an OP that R422 admits whatever its KIND, no zero seed that it uses, an allowed KFMT, the lane's groups. -/
def State.patOk (s : State) (slot lane : Nat) : Bool :=
  let w0 := s.patWord slot 0
  let r := s.patReq slot
  let f := r.kfmt.toNat
  let k := s.patKind slot
  fld w0 9 7 = 0 && fld w0 28 4 = 0 && k != 3 && ((List.range 10).all fun i => s.patWord slot (6 + i) = 0) &&
    r.op < 0x19 && opOf r.opc r.op && fld (s.patWord slot 5) 9 23 = 0 && (bit w0 7 || fld (s.patWord slot 1) 0 16 != 0) &&
    (bit w0 8 || fld (s.patWord slot 1) 16 16 != 0) && !bit r.kop 7 && s.laneHas lane (fmtGroup f) &&
    match k with
    | 0 => fmtAllowed r.op f && (!(r.sr && srOp r.op) || s.laneHas lane 6)
    | 1 => fmtAllowed 0x1A f && s.laneHas lane 4
    | _ => scanFmt f && rowBytes f 64 ≤ 128 && s.laneHas lane 5

/-- What a run gives: the result line, and the value it returns where it returns one. -/
def State.patResult (s : State) (slot : Nat) : Line × Option (BitVec 64) :=
  let r := s.patReq slot
  let t := s.patLine slot 7 0
  let o := s.patLine slot 8 16
  let sr := if r.sr && srOp r.op && r.kfmt.toNat ≥ 4 then some (Config.freePatSr (fld s.chk.patst 16 16).toNat) else none
  match s.patKind slot with
  | 0 =>
    if r.op ≤ 10 then
      let x := scalarOp r t o (sr.map fun y => srValue y 0)
      (x.line, if r.op = 1 then none else some x.rval)
    else if r.op = 0x18 then ((raccOp r t o sr).line, none) else ((vectorOp r t o sr).line, none)
  | 1 =>
    let w5 := s.patWord slot 5
    let f : FrameSet := { tgt := r.line, cls := r.cls, a := fld w5 0 8, n := 8, out := bit w5 8, init := false, expect := 0, count := 0
                          sticky := 0, poison := false, ovf := 0, wraps := List.replicate 8 0, keys := [] }
    let (f, accs) := enterAll f (List.replicate 8 0) (operands r.kfmt.toNat o)
    let (d, mask, _) := closeLine f accs t
    (d, some (pack 64 [(0, mask.toNat), (32, f.sticky.toNat)]))
  | _ =>
    let x := rnd32 ((val32 0x3F800000).mul (val32 (scoreT r.kfmt.toNat 64 o.toNat t.toNat)))
    (t, some (x.setWidth 64))

/-- The run's values are those the slot expects. -/
def State.patPasses (s : State) (slot : Nat) : Bool :=
  let (d, v) := s.patResult slot
  let exp : BitVec 64 := (s.patWord slot 4) ++ (s.patWord slot 3)
  crust (s.patReq slot).line d == s.patWord slot 2 && (v.map fun x => x == exp).getD true

/-- CHK_PATST after a run or a void (R433). -/
def State.patSt (s : State) (slot lane res runs : Nat) : State :=
  { s with chk.patst := pack 32 [(0, slot), (6, lane), (8, res), (16, runs)], chk.patDue := none, chk.patVoid := false }

/-- A run that has fallen due: one lane cycle, or two for an accumulation of N 8 with its close (R341, R342, R446); `wrong` tells that the lane's values or its residue check failed. -/
def State.patRun (s : State) (slot lane : Nat) (wrong : Bool) : State :=
  let runs := (fld s.chk.patst 16 16).toNat
  if s.chk.patVoid then s.patSt slot lane 3 runs
  else if !s.patOk slot lane then { (s.chkErr 9) with chk.patDue := none }
  else
    let s := ((s.start lane).charge (if s.patKind slot = 2 then 6 else 5) s.iclass (if s.patKind slot = 1 then 2 else 1)).ev 149
    let runs := Nat.min (runs + 1) 65535
    if s.patPasses slot && !wrong then
      { (s.patSt slot lane 1 runs) with chk.patok := upd s.chk.patok lane fun _ => s.chk.step }
    else
      let s := { ((s.patSt slot lane 2 runs).chkErr 8).suspect 1 with chk.patfail := satAdd s.chk.patfail 1 }
      s.scree { kind := 0x32, sev := 0, susp := true, unit := if s.patKind slot = 2 then 7 else 6, lane, cls := s.iclass.toNat
                detail := slot }

/-- PATTERN_RUN. -/
def execPatternRun (wrong : Bool) (s : State) : Host.Outcome State Fault Refusal := s.starting <|
  match s.chk.patDue with
  | some x => s.when s.patRuns (s.patRun (x / 4) (x % 4) wrong)
  | none => .next s

end Sys2Proof.Machine
end

