-- ==== Sys2Proof/Machine/Power.lean ====
section
/-! DEFINITION. The power interface, energy reports, and the CCK cycle with its event counters (15). -/
namespace Sys2Proof.Machine

/-! ### Caps on starts (R434 to R436) -/

/-- PWR_ST.NB: the cap on bank starts, n of n/8 (R436). -/
def State.capNB (s : State) : Nat := 8 - s.pwr.thr.toNat

/-- PWR_ST.NK: the cap on knead and scan starts, n of n/8 (R435, R436). -/
def State.capNK (s : State) : Nat := if s.pwr.droop then Nat.min 4 s.capNB else s.capNB

/-- Sets a bit of PWR_ERR (R460). -/
def State.pwrErr (s : State) (i : Nat) : State := { s with pwr.err := setBit s.pwr.err i }

/-- Droop recognised (R435, R442): a preparation is abandoned and deferred, and work starts again. -/
def State.droopOn (s : State) : State :=
  let s := { s with pwr.droop := true }.pwrErr 2
  if s.pwr.fstate = .preparing then ({ (s.ev 157) with pwr.fstate := .deferred }.pwrErr 1).drainRd else s

/-- DROOP_ASSERT. -/
def execDroopAssert (s : State) : Host.Outcome State Fault Refusal := s.when (s.coreUp && !s.pwr.droop) s.droopOn

/-- DROOP_LIFT. -/
def execDroopLift (s : State) : Host.Outcome State Fault Refusal := s.when s.pwr.droop { s with pwr.droop := false }

/-- THROTTLE_TAKEN. -/
def execThrottleTaken (l : BitVec 3) (s : State) : Host.Outcome State Fault Refusal :=
  s.when s.coreUp { (s.evq 155 l.toNat) with pwr.thr := l }

/-! ### The frequency handshake (R440 to R443) -/

/-- SL_PW_FREQ_ACK is raised. -/
def State.freqAck (s : State) : State := { s with pwr.fstate := .acked, pwr.ack := true }

/-- The rows of R440; `recent` tells that fewer than 64 ACK cycles have passed since the droop fraction was lifted. -/
def State.freqRequest (s : State) (recent : Bool) : State :=
  let s := { s with pwr.req := true }
  if s.ctl.st = .fenced then s.freqAck
  else if s.pwr.fixed then (s.ev 157).pwrErr 0
  else if s.ctl.st = .initializing then { (s.ev 157) with pwr.fstate := .deferred }
  else if s.pwr.droop || recent then { (s.ev 157) with pwr.fstate := .deferred }.pwrErr 1
  else { s with pwr.fstate := .preparing }

/-- FREQ_REQ_HIGH. -/
def execFreqReqHigh (recent : Bool) (s : State) : Host.Outcome State Fault Refusal :=
  s.when (s.ctl.st != .off && !s.pwr.req) (s.freqRequest recent)

/-- FREQ_DEFER_END: preparation begins, neither INITIALIZING nor droop being left. A request deferred by INITIALIZING waits for a droop that is
low when INITIALIZING ends too (R440, R442; DESIGN CHOICE: log 109). -/
def execFreqDeferEnd (s : State) : Host.Outcome State Fault Refusal :=
  s.when (s.pwr.fstate = .deferred && s.ctl.st != .initializing && !s.pwr.droop) { s with pwr.fstate := .preparing }

/-- FREQ_PREP_DONE: every started operation has finished. -/
def execFreqPrepDone (s : State) : Host.Outcome State Fault Refusal := s.when (s.pwr.fstate = .preparing) s.freqAck

/-- SL_PW_FREQ_REQ recognised low: the handshake is complete, or the request is withdrawn (R441 to R443). Work that the read-data FIFO
held back goes on. -/
def State.freqLow (s : State) : State :=
  let t := { s with pwr.req := false, pwr.fstate := .idle, pwr.ack := false }
  match s.pwr.fstate with
  | .acked => (t.ev 156).rampAll.drainRd
  | .preparing => (t.pwrErr 3).drainRd
  | .deferred => t.pwrErr 3
  | .idle => t

/-- FREQ_REQ_LOW. -/
def execFreqReqLow (s : State) : Host.Outcome State Fault Refusal := s.when s.pwr.req s.freqLow

/-! ### Energy (R445, R448) -/

/-- The reported energy of a class: bits [55:8] of its accumulator. -/
def State.energy (s : State) (c : Nat) : BitVec 48 := fld (nth s.pwr.acc c 0) 8 48

/-- A report begins in this CCK cycle, and has not begun yet. -/
def State.reportDue (s : State) : Bool :=
  s.coreUp && s.cfg.ener.erptEn && s.ring.powcyc.toNat % 2 ^ s.cfg.ener.erper.toNat = 0 &&
    (s.pwr.report.isEmpty || s.pwr.rstart != s.ring.powcyc)

/-- A report begins: the 16 values are captured at once. -/
def State.beginReport (s : State) : State :=
  { (s.ev 159) with pwr.report := (List.range 16).map s.energy, pwr.rstart := s.ring.powcyc }

/-- ENERGY_REPORT. -/
def execEnergyReport (s : State) : Host.Outcome State Fault Refusal := s.when s.reportDue s.beginReport

/-- The CCK cycle of the report under way, 0 to 127 (R448). -/
def State.erptCycle (s : State) : Option Nat :=
  let c := (s.ring.powcyc - s.pwr.rstart).toNat
  if s.pwr.report ≠ [] ∧ c < 128 then some c else none

/-- SL_PW_ERPT_VLD: high in cycles 8c + 2 to 8c + 5 of a report (R448). -/
def State.erptVld (s : State) : Bool := s.erptCycle.any fun c => 2 ≤ c % 8 && c % 8 ≤ 5

/-- SL_PW_ERPT_CLS and SL_PW_ERPT_DATA: word c through cycles 8c to 8c + 7; 0 when no report is under way (R77, R448; log 86). -/
def State.erptCls (s : State) : BitVec 4 := BitVec.ofNat 4 (s.erptCycle.getD 0 / 8)
def State.erptData (s : State) : BitVec 48 := (s.erptCycle.map fun c => nth s.pwr.report (c / 8) 0).getD 0

/-! ### Event counters and the CCK cycle (R450 to R455) -/

/-- The mode word of counter `i` (R459). -/
def State.mode (s : State) (i : Nat) : BitVec 16 := nth s.cfg.count i 0

/-- Occurrences a counter takes from a cycle: those of its event, with its qualifier while QEN is 1 (R453). -/
def occurs (m : BitVec 16) (i : Nat) (l : List PmcEv) : Nat :=
  l.foldl (fun (a : Nat) (e : PmcEv) => if e.num = i && (!bit m 4 || e.qual = (fld m 5 8 : BitVec 8).toNat) then a + e.k else a) 0

/-- What a counter adds by its own event (R452). -/
def adds (m : BitVec 16) (i : Nat) (now prev : List PmcEv) : Nat :=
  let k := occurs m i now
  match (fld m 0 2 : BitVec 2).toNat with
  | 0 => k
  | 1 => num (k != 0)
  | 2 => num (k != 0 && occurs m i prev = 0)
  | _ => 0

/-- Counter `i` is the upper half of a chained pair (R454). -/
def State.chained (s : State) (i : Nat) : Bool := i % 2 == 1 && bit (s.mode i) 2

/-- The carry of a counter that adds `k`. -/
def carry (v : BitVec 40) (k : Nat) : Bool := v.toNat + k ≥ 2 ^ 40

/-- What counter `i` adds in this cycle (R452, R454). -/
def State.addend (s : State) (i : Nat) : Nat :=
  if s.chained i then num (carry (nth s.pmc.cnt (i - 1) 0) (adds (s.mode (i - 1)) (i - 1) s.pmc.now s.pmc.prev))
  else adds (s.mode i) i s.pmc.now s.pmc.prev

/-- Counter `i` wraps in this cycle. -/
def State.wraps (s : State) (i : Nat) : Bool :=
  s.coreUp && !s.pmc.freeze && !s.pmc.skip && carry (nth s.pmc.cnt i 0) (s.addend i)

/-- Counters whose wrap sets FREEZE in this cycle (R455). -/
def State.freezers (s : State) : List Nat := (List.range 160).filter fun i => s.wraps i && bit (s.mode i) 3

/-- Every counter takes its increment of the cycle; wraps set PMC_OVF, and FREEZE where FOVF is 1 (R450 to R455). -/
def State.count (s : State) : State :=
  if s.pmc.freeze || s.pmc.skip then s
  else
    let fz := s.freezers
    { s with
      pmc.cnt := (List.range 160).map fun i => nth s.pmc.cnt i 0 + BitVec.ofNat 40 (s.addend i)
      pmc.ovf := (List.range 160).map fun i => nth s.pmc.ovf i false || (s.wraps i && !s.chained (i + 1))
      pmc.freeze := !fz.isEmpty
      pmc.fvalid := s.pmc.fvalid || !fz.isEmpty
      pmc.fcnt := if fz.isEmpty then s.pmc.fcnt
        else BitVec.ofNat 8 (nth fz (Config.freeWrap s.ring.powcyc.toNat % fz.length) 0) }

/-- The events that count CCK cycles: 154 droop, 158 SL_PW_FREQ_ACK high (R451). -/
def State.cycleEvents (s : State) : State := (s.evk 154 0 (num s.pwr.droop)).evk 158 0 (num s.pwr.ack)

/-- The present CCK cycle with everything that happens in it whatever is commanded: a report that falls due begins (R448), and the cycle's own
events occur. -/
def State.cycleWhole (s : State) : State := (if s.reportDue then s.beginReport else s).cycleEvents

/-- What ends with the cycle outside the counters: an access of the register port is over (R73), the lanes have taken a frame out of the transmit
FIFO (R119; log 89), and the ring port's arbiter goes round again (R388). -/
def State.cycleOver (s : State) : State :=
  { s with rg.rdy := false, lnk.txFifo := if s.ring.pckRun then s.lnk.txFifo.drop 1 else s.lnk.txFifo, port.eastMade := false }

/-- One CCK cycle ends: POWCYC counts (R36), STATIC energy is charged (R446), and the counters take the cycle's
occurrences. In OFF nothing is clocked. -/
def State.cycle (s : State) : State :=
  if s.ctl.st = .off then s
  else
    let s := if s.coreUp then (s.cycleWhole.charge 0 s.iclass 1).count else s
    { s.cycleOver with ring.powcyc := s.ring.powcyc + 1, pmc.prev := s.pmc.now, pmc.now := [], pmc.skip := false }

/-- COUNTER_WRAP: the CCK cycle ends in which counter `i` wraps, all its events taken (R450, R451). -/
def execCounterWrap (i : Nat) (s : State) : Host.Outcome State Fault Refusal :=
  s.when (i < 160 && s.cycleWhole.wraps i) s.cycle

end Sys2Proof.Machine
end

