-- ==== Sys2Proof/Machine/Resets.lean ====
section
/-! DEFINITION. Resets, clocks that stop and start, and test access (02 R78 to R81, 04 R125 to R136, 05 R141, R144, R145). -/
namespace Sys2Proof.Machine

/-! ### The memory port goes down and comes up (R125, R127, R128) -/

/-- Every read that waits on the memory port is completed with poison (R127). -/
def State.downReads (s : State) : State :=
  s.home.ht.foldl (fun (s : State) e =>
    match tabGet s.home.ht e.1 with
    | some h =>
      if h.mw || s.mp.miss.any (fun m => m.2.ent = e.1 && (m.2.st = .alloc || m.2.st = .issued)) then (s.downEntry e.1 h).settle e.1 h none else s
    | none => s) s

/-- Writes whose completion has not arrived stay in the write hold, to be issued again (R127, R128). -/
def State.holdAgain (s : State) : State :=
  { s with mp.hold := s.mp.hold.map fun (w : Wr) => { w with st := .ready, wdSent := false, again := true } }

/-- The memory port goes down: its FIFOs are emptied, and nothing from before is awaited any more. -/
def State.portDown (s : State) : State :=
  { s with ring.mpUp := false, mp.cmdFifo := [], mp.wdFifo := [], mp.rdFifo := [], mp.rdWait := [], mp.flushRd := [], mp.flushWr := [], mp.flushWd := []
    }.holdAgain.downReads

/-- The memory port comes up when its reset is deasserted with MCK running; every line in the write hold is issued before any other
command, also one put there while the port was down (R128). -/
def State.portUp (s : State) : State :=
  if !s.ring.mpRst && s.ring.mckRun && !s.ring.mpNeedRst && !s.ring.mpUp && s.ctl.st != .off then
    { s with ring.mpUp := true, mp.hold := s.mp.hold.map fun (w : Wr) => { w with again := true } }
  else s

/-- MP_RESET_ASSERT. -/
def execMpResetAssert (s : State) : Host.Outcome State Fault Refusal :=
  s.when (!s.ring.mpRst)
    (if s.ctl.st = .off then { s with ring.mpRst := true }
     else { s with ring.mpRst := true, ring.rstcause := setBit s.ring.rstcause 2 }.portDown)

/-- MP_RESET_DEASSERT. -/
def execMpResetDeassert (s : State) : Host.Outcome State Fault Refusal :=
  s.when s.ring.mpRst { s with ring.mpRst := false, ring.mpNeedRst := false }.portUp

/-- MCK_STOP (R125); while SL_MP_RST_N is asserted MCK is not watched, and only MCK_RUN falls (R138). -/
def execMckStop (s : State) : Host.Outcome State Fault Refusal :=
  s.when (s.ctl.st != .off)
    (if s.ring.mpRst then { s with ring.mckRun := false }
     else { s with ring.xerr := setBit s.ring.xerr 0, ring.mckRun := false, ring.mpNeedRst := true }.portDown)

/-- MCK_ALIVE (R125). -/
def execMckAlive (s : State) : Host.Outcome State Fault Refusal :=
  s.when (s.ctl.st != .off) { s with ring.mckRun := true }.portUp

/-! ### The PHY side of the saddle port (R104, R126, R131) -/

/-- The saddle port is enabled: its link goes down with this code, also when it was down for another reason. -/
def State.phyLost (s : State) (code : Nat) : State :=
  if s.ring.tieEdge && s.lnk.cfg.enable && !(s.lnk.st = .down && s.lnk.errc = 2) then s.linkLost code else s

/-- The outputs of the PCK side at their reset values, and its FIFO empty (R83, R132). -/
def State.phyReset (s : State) : State :=
  { s with lnk.txFifo := [], lnk.laneEn := 0, lnk.phyReq := false, lnk.phyRate := 0, lnk.phySsc := false, lnk.want := none }

/-- PHY_RESET_ASSERT. -/
def execPhyResetAssert (s : State) : Host.Outcome State Fault Refusal :=
  s.when (!s.ring.spRst)
    (if s.ctl.st = .off then { s with ring.spRst := true }
     else ({ s with ring.spRst := true, ring.rstcause := setBit s.ring.rstcause 3 }.phyLost 0x0B).phyReset)

/-- PHY_RESET_DEASSERT. -/
def execPhyResetDeassert (s : State) : Host.Outcome State Fault Refusal :=
  s.when s.ring.spRst { s with ring.spRst := false }.relink

/-- PCK is watched (R126). -/
def State.watchPck (s : State) : Bool :=
  s.ctl.st != .off && s.ring.tieEdge && s.lnk.cfg.enable && !s.ring.spRst && !s.lnk.phyReq

/-- PCK_STOP; while PCK is not watched only PCK_RUN falls (R138). -/
def execPckStop (s : State) : Host.Outcome State Fault Refusal :=
  s.when (s.ctl.st != .off)
    (if s.watchPck then { s with ring.xerr := setBit s.ring.xerr 1, ring.pckRun := false }.phyLost 0x0A
     else { s with ring.pckRun := false })

/-- PCK_ALIVE (R126, R131). -/
def execPckAlive (s : State) : Host.Outcome State Fault Refusal :=
  s.when (s.ctl.st != .off) { s with ring.pckRun := true }.relink

/-! ### SL_RS_RST_N (R132, R133, R141, R145) -/

/-- Everything is reset but the pins of the other resets, the test access port and the waiting commands. -/
def State.powerReset (s : State) (tst : Bool) : State :=
  { State.reset with
    ring := { Ring.reset with coreRst := s.ring.coreRst, mpRst := s.ring.mpRst, spRst := s.ring.spRst, tapRst := s.ring.tapRst, tstMode := tst }
    tap := s.tap, pending := s.pending }

/-- RING_RESET_ASSERT; `tst` is the level of SL_TST_MODE, which changes only now (R81). -/
def execRingResetAssert (tst : Bool) (s : State) : Host.Outcome State Fault Refusal := s.did (s.powerReset tst)

/-- RING_RESET_DEASSERT: OFF is left for FENCED, and the tie-offs are sampled (R35, R145). A reset input that is asserted already sets
no bit of CFG_RSTCAUSE here, which the manual leaves open (R132; log 74). -/
def execRingResetDeassert (slice : Id12) (die : BitVec 4) (edge : Bool) (itag : BitVec 64) (s : State) :
    Host.Outcome State Fault Refusal :=
  s.when (s.ctl.st = .off)
    { s with ctl.st := .fenced, ring.rsRst := false, ring.tieSlice := slice, ring.tieDie := die, ring.tieEdge := edge
             ring.tieItag := itag }

/-! ### SL_RST_N (R129, R132, R134, R141, R144) -/

/-- What the MCK side keeps of the commands that have transferred (R129): the tags still to return, and the write-data beats
still to be sent. -/
def State.flushed (s : State) : Mp :=
  { Mp.reset with
    flushRd := s.mp.flushRd ++ (s.mp.miss.filter fun m => s.awaits m.1).map fun m => m.1
    flushWr := s.mp.flushWr ++ (s.mp.hold.filter fun w => w.st = .sent).map fun w => w.tag
    flushWd := s.mp.flushWd ++ s.mp.wdFifo.filterMap fun t =>
      (s.wrOf t).bind fun w => if w.st = .sent then some (t, w.data, w.pois, w.crust) else none }

/-- The flits of an injection queue that the core did not make. -/
def Inj.foreign (j : Inj) : Inj :=
  let keep (l : List OutFlit) : List OutFlit := l.filter fun x => !x.own
  { j with req := keep j.req, snp := keep j.snp, rsp := keep j.rsp, dat := keep j.dat }

def Link.foreign (l : Link) : Link := { l with inj := l.inj.foreign, arm := l.arm && l.inj.foreign.waiting }

/-- Flits in the ring station's queues for transactions of the core: every response, and line data and payload but that of a request that waits
undecoded (R141). -/
def Ports.fenced (p : Ports) : Nat :=
  p.rx.rsp.length +
    (p.rx.dat.filter fun d => !(isPayload d.f && p.rx.req.any fun q => flitName q.f = flitName d.f)).length

/-- The ring station's ports after the core is gone: what it passes on stays, what waited for the core is dropped and counted (R59, R141), and the
payload still to come is discarded (R144). -/
def Ports.fence (p : Ports) : Ports :=
  { Ports.reset with
    dropped := p.dropped + p.fenced, bad := p.bad
    rx := { Rx.reset with drop := (p.rx.resv ++ p.rx.late).foldl (fun d c => txSet d c.name (txCount d c.name + c.n)) p.rx.drop }
    east := p.east.foreign, west := p.west.foreign, ready := p.ready.filter fun m => !m.own, relayed := p.relayed }

/-- ERR_NOTRUN for a request that waits undecoded in the ring station (R141), under its class (R379). -/
def State.fenceAnswer (s : State) (q : QFlit) : State :=
  let n := flitName q.f
  s.relayRing (reqCls q.f) none [rspFlit n.sty n.src n 0 2 false 0 0 false 0 0]

/-- The power interface after SL_RST_N: a request still high is answered as in FENCED (R442). -/
def Pwr.fence (p : Pwr) : Pwr :=
  if p.req then { Pwr.reset with req := true, fstate := .acked, ack := true } else Pwr.reset

/-- FENCED is entered: the core is reset, and the ring station's domain and the link layer go on (R132, R141). -/
def State.fence (s : State) : State :=
  let t := { State.reset with
    ring := { s.ring with coreRst := true, rstcause := setBit s.ring.rstcause 1 }
    ctl := { Ctl.reset with st := .fenced }
    arr := { Arr.reset with undef := s.arr.undef }
    mp := s.flushed, port := s.port.fence, pwr := s.pwr.fence, lnk := s.lnk, rg := s.rg, tap := s.tap, pending := s.pending }
  (s.port.rx.req.foldl State.fenceAnswer t).relink

/-- CORE_RESET_ASSERT. -/
def execCoreResetAssert (s : State) : Host.Outcome State Fault Refusal :=
  s.did (if s.ctl.st = .off then { s with ring.coreRst := true } else s.fence)

/-- CORE_RESET_EXIT: the core leaves reset into SHAPELESS, and every near-port credit is to be returned (R64, R134, R145). -/
def execCoreResetExit (s : State) : Host.Outcome State Fault Refusal :=
  s.when (s.ctl.st = .fenced)
    { s with ctl.st := .shapeless, ring.coreRst := false, port.npa.owed := [32, 0, 32, 64], port.npb.owed := [32, 0, 32, 64] }

/-! ### Test access (R78, R79, R81, R132) -/

/-- The TAP controller of IEEE 1149.1: the state after a rising edge of TCK with this TMS (R78; PRESUMED: log 91). -/
def tapNext (st : TapSt) (tms : Bool) : TapSt :=
  match st with
  | .testLogicReset => if tms then .testLogicReset else .runTestIdle
  | .runTestIdle | .updateDr | .updateIr => if tms then .selectDr else .runTestIdle
  | .selectDr => if tms then .selectIr else .captureDr
  | .captureDr | .shiftDr => if tms then .exit1Dr else .shiftDr
  | .exit1Dr => if tms then .updateDr else .pauseDr
  | .pauseDr => if tms then .exit2Dr else .pauseDr
  | .exit2Dr => if tms then .updateDr else .shiftDr
  | .selectIr => if tms then .testLogicReset else .captureIr
  | .captureIr | .shiftIr => if tms then .exit1Ir else .shiftIr
  | .exit1Ir => if tms then .updateIr else .pauseIr
  | .pauseIr => if tms then .exit2Ir else .pauseIr
  | .exit2Ir => if tms then .updateIr else .shiftIr

/-- A TCK cycle with TMS and TDI: the action of the present state, then the next state. -/
def Tap.clock (t : Tap) (x : Bool × Bool) : Tap :=
  let t := match t.st with
    | .captureIr => { t with sh := 1 }
    | .shiftIr => { t with sh := putBit (t.sh >>> (1 : Nat)) 3 x.2 }
    | .updateIr => { t with ir := t.sh }
    | .captureDr => if t.ir = 1 then t else { t with bypass := false }
    | .shiftDr => if t.ir = 1 then t else { t with bypass := x.2 }
    | .testLogicReset => { t with ir := 0xF, segs := 0 }
    | _ => t
  { t with st := tapNext t.st x.1 }

/-- SL_TST_TDO: driven in Shift-IR and Shift-DR only (R78); in the network its next bit is that of the segment captured. -/
def Tap.tdo (t : Tap) : Option Bool :=
  match t.st with
  | .shiftIr => some (bit t.sh 0)
  | .shiftDr => some (if t.ir = 1 then bit t.capture 0 else t.bypass)
  | _ => none

/-- The TCK cycles that load a code into the instruction register and end in Run-Test/Idle. -/
def irScan (code : BitVec 4) : List (Bool × Bool) :=
  [(false, false), (true, false), (true, false), (false, false), (false, false), (false, bit code 0), (false, bit code 1),
    (false, bit code 2), (true, bit code 3), (true, false), (false, false)]

/-- An instruction is loaded, unless SL_TST_TRST_N holds the TAP in Test-Logic-Reset (R79, R80). -/
def State.loadIr (s : State) (code : BitVec 4) : Host.Outcome State Fault Refusal :=
  s.when (!s.ring.tapRst) { s with tap := (irScan code).foldl Tap.clock s.tap }

/-- IJTAG_ACCESS is loaded into the instruction register. -/
def execIjtagAccess (s : State) : Host.Outcome State Fault Refusal := s.loadIr 1

/-- BYPASS: every code other than 0b0001. -/
def execBypass (code : BitVec 4) (s : State) : Host.Outcome State Fault Refusal := if code = 1 then .next s else s.loadIr code

/-- TAP_RESET: an edge of SL_TST_TRST_N. Its assertion brings Test-Logic-Reset and the instruction register at BYPASS, and leaves
functional state unchanged; while it is low the TAP stays there (R80, R132). The table has no command for the deassertion: the next
TAP_RESET is it (DESIGN CHOICE: log 9). -/
def execTapReset (s : State) : Host.Outcome State Fault Refusal :=
  s.did { s with tap := { Tap.reset with n := s.tap.n }, ring.tapRst := !s.ring.tapRst }

/-- The segment insertion bit of an instrument (R79). -/
def segOf : Instrument → Nat
  | .bondChain => 0
  | .selfTest => 1
  | .stateCapture => 2

/-- The value a capture brings: the state's code, or that of an instrument whose layout the manual does not give. The bond-test
result chain has a field of its own. -/
def State.captured (s : State) (i : Instrument) : BitVec 64 :=
  match i with
  | .stateCapture => BitVec.ofNat 64 (stCode s.ctl.st)
  | .bondChain | .selfTest => Config.freeCapture s.tap.n

/-- A capture or an update of an instrument, whose segment is in the scan path; an update of the self-test controller runs the array
self-test in test mode. A capture of the bond-test result chain holds the result per connection (R147). -/
def State.instrument (s : State) (i : Instrument) (update : Bool) : State :=
  if update then
    { s with tap.last := some i, tap.segs := setBit s.tap.segs (segOf i)
             arr.undef := s.arr.undef || (i == .selfTest && s.ring.tstMode && s.ctl.st != .off) }
  else { (s.pulses 2 153 1) with
         tap.last := some i, tap.segs := setBit s.tap.segs (segOf i), tap.capture := s.captured i
         tap.chain := if i = .bondChain then s.ring.bondBad else s.tap.chain, tap.n := s.tap.n + 1 }

/-- IJTAG_INSTRUMENT_ACCESS. -/
def execIjtagInstrumentAccess (ins : Instrument) (update : Bool) (s : State) : Host.Outcome State Fault Refusal :=
  s.when (s.tap.ir = 1) (s.instrument ins update)

end Sys2Proof.Machine
end

