-- ==== Sys2Proof/Machine/Regs.lean ====
section
/-! DEFINITION. The register map as it reads: every register of R463, and the interrupt and suspect lines (02 R73, R76, 16 R462 to
R467, and the register tables of every chapter). -/
namespace Sys2Proof.Machine

/-! ### Values that are computed from state -/

/-- A word from (lowest bit, value) pairs. -/
def word (l : List (Nat × Nat)) : Word := pack 32 l

/-- An image is in force: the configuration fields hold its values (R463). -/
def State.imaged (s : State) : Bool :=
  s.coreUp && s.ctl.st != .shapeless && !(s.ctl.st = .loading && s.ctl.lorig = .shapeless)

/-- ST_STATE.LORIG (R174). -/
def State.lorigCode (s : State) : Nat :=
  match s.ctl.lorig with
  | .shapeless => 1
  | .quiesced => 2
  | .drained => 3
  | _ => 0

/-- Valid final writes held (R293). -/
def State.landHeld (s : State) : Nat := (s.land.tab.filter fun e => e.2.held.isSome).length

/-- Some landing entry has U above 0 or an add outstanding (R293). -/
def State.landUnsent (s : State) : Bool := s.land.tab.any fun e => e.2.u != 0 || e.2.add.isSome

/-- COH_DEADST (R260). -/
def State.deadSt (s : State) : Word :=
  let run := s.home.walk && s.ctl.st = .running && s.opensClosed
  word [(0, num run), (1, num (s.walkDue && !run)), (2, (s.home.dead.filter (·.valid)).length), (7, s.home.walkSet)]

/-- KND_SCST.WAITPIN (R378): an unpin or a demotion step waits for the scans that use its cairn (R362). Demotion pauses outside RUNNING (R305). -/
def State.waitPin (s : State) : Bool := ((s.pinNext 14).any fun r => s.unpinHeld r) || s.stepHeld

/-- PIN_STAT.DEMOTE (R321): a class is in demotion, which its use and its cairns may have ended (R304). -/
def State.demoting (s : State) : Bool :=
  (List.range 16).any fun c => bit s.pin.demote c && !s.demoted (BitVec.ofNat 4 c)

/-- KND_SCST.COLBUSY (R378). -/
def State.colBusy (s : State) : Nat :=
  (List.range 4).foldl (fun a n => a + if s.knd.scans.any fun j => j.on n then 2 ^ n else 0) 0

/-- Pattern slots with VALID 1 (R433). -/
def State.patValid (s : State) : Nat := ((List.range 64).filter fun i => bit (s.patWord i 0) 0).length

/-- LNK_ST.STATE (R109). -/
def lkCode : LkSt → Nat
  | .down => 0
  | .detect | .ts1 => 1
  | .lanechk => 2
  | .capex => 3
  | .rateset => 4
  | .prbs => 5
  | .align => 6
  | .up => 7
  | .retrain => 8

def fsCode : FState → Nat
  | .idle => 0
  | .preparing => 1
  | .acked => 2
  | .deferred => 3

/-- The low and high words that name a line: SPACE with ADDR[31:7], ADDR[51:32]. -/
def lineLo (l : LineId) : Word := word [(0, num l.space), (7, l.ln.toNat % 2 ^ 25)]
def lineHi (l : LineId) : Word := word [(0, l.ln.toNat / 2 ^ 25)]

/-- A pair of 16-bit values in one word. -/
def pair16 (l : List (BitVec 16)) (k : Nat) : Word := word [(0, (nth l (2 * k) 0).toNat), (16, (nth l (2 * k + 1) 0).toNat)]

/-- The cairn entry PIN_CSEL selects (R321). -/
def State.selCairn (s : State) : Option Cairn := tabGet s.pin.cairns s.pin.csel.toNat

/-- Lines of a cairn pinned at this slice. -/
def State.cairnLines (s : State) (c : Cairn) : Nat :=
  s.arr.frames.foldl (fun a p => if p.2.pin && p.2.fmt != .rframe then
    a + (p.2.valid.filter fun i => c.covers (p.2.lineId p.1 i)).length else a) 0

/-! ### The map (R463) -/

/-- Registers with an offset of their own: the ring station's domain and the control plane. -/
def State.readRing (s : State) (o : Nat) : Option Word :=
  match o with
  | 0x0000 => some Config.blkId
  | 0x0004 => some (word [(0, s.ring.tieSlice.toNat), (12, s.ring.tieDie.toNat), (16, num s.ring.tieEdge)])
  | 0x0008 => some (fld s.ring.tieItag 0 32)
  | 0x000C => some (fld s.ring.tieItag 32 32)
  | 0x0020 => some (fld s.ring.powcyc 0 32)
  | 0x0024 => some s.ring.powHi
  | 0x0028 => some (s.ring.rstcause.setWidth 32)
  | 0x002C => some (word [(0, num s.ring.mckRun), (1, num s.ring.pckRun), (2, num s.ring.mpUp)])
  | 0x0030 => some (s.ring.xerr.setWidth 32)
  | 0x0034 => some (s.ring.xirqen.setWidth 32)
  | 0x0424 => some (word [(0, s.ring.bondFail.toNat), (16, num s.ring.bondDone)])
  | 0x3800 => some (word [(1, num s.lnk.hold)])
  | 0x3804 => some (word [(0, lkCode s.lnk.st), (4, s.lnk.mode.rate.toNat), (6, s.lnk.mode.width.toNat), (8, num s.lnk.mode.fec)
      , (9, num s.lnk.mode.ssc), (10, s.lnk.mode.base.toNat), (13, num s.lnk.rev), (14, s.lnk.errc.toNat)])
  | 0x3808 => some s.lnk.cfg.cap
  | 0x380C => some s.lnk.pcap
  | 0x3810 => some (word [(0, s.lnk.good.toNat), (8, s.lnk.polinv.toNat)])
  | 0x3814 => some (s.lnk.lflt.setWidth 32)
  | 0x3818 => some (s.lnk.err.setWidth 32)
  | 0x381C => some (s.lnk.irqen.setWidth 32)
  | 0x3820 => some s.lnk.cfg.cfg
  | 0x3824 => some s.lnk.cfg.fwd
  | 0x3828 => some s.lnk.cfg.phyc
  | _ => none

/-- The ID and control group of the core, and the state and shape group (R174, R293). -/
def State.readCtl (s : State) (o : Nat) : Option Word :=
  match o with
  | 0x0100 => some (word [(0, num s.land.strict)])
  | 0x0104 => some s.land.ltLo
  | 0x0108 => some s.land.ltHi
  | 0x010C => some s.land.landcfg
  | 0x0110 => some (word [(0, s.landHeld), (7, num s.landUnsent)])
  | 0x0114 => some (s.land.err.setWidth 32)
  | 0x0118 => some (s.land.irqen.setWidth 32)
  | 0x011C => some (s.land.last.setWidth 32)
  | 0x0120 => some s.land.scopew
  | 0x0400 => some (word [(0, stCode s.ctl.st), (4, num s.ctl.busy), (5, num s.ctl.epoch), (6, num s.cfg.compat), (7, s.lorigCode)])
  | 0x0404 | 0x0408 => some 0
  | 0x040C => some (s.ctl.imgCnt.setWidth 32)
  | 0x0410 => some (word [(0, s.ctl.leCode.toNat), (16, s.ctl.leSect.toNat)])
  | 0x0414 => some (s.ctl.leOff.setWidth 32)
  | 0x0418 => some s.ctl.imgser
  | 0x041C => some (putBit s.ctl.prof 3 (s.ctl.gov != 0))
  | 0x0420 => some (word [(0, s.ctl.rejOp.toNat), (4, s.ctl.rejState.toNat), (8, num s.ctl.rejSrc), (16, s.ctl.rejCnt.toNat)])
  | 0x0428 => some (s.ctl.insvc.setWidth 32)
  | 0x042C => some (word [(0, s.ctl.drnBuf.toNat), (24, s.ctl.drnFr.toNat)])
  | 0x0430 => some (s.ctl.irq.setWidth 32)
  | 0x0434 => some (s.ctl.irqen.setWidth 32)
  | _ => none

/-- The arrays and coherence groups (R216, R241, R260). -/
def State.readArr (s : State) (o : Nat) : Option Word :=
  let a := s.cfg.arr
  if 0x0820 ≤ o && o ≤ 0x083C then some (pair16 a.wayoff ((o - 0x0820) / 4))
  else if 0x0840 ≤ o && o ≤ 0x085C then some (pair16 s.arr.waydis ((o - 0x0840) / 4))
  else if 0x1050 ≤ o && o ≤ 0x108C then
    let d := nth s.home.dead ((o - 0x1050) / 4) .reset
    some (word [(0, d.agent.toNat), (12, d.np.toNat), (14, num d.done), (31, num d.valid)])
  else match o with
  | 0x0800 => some (word [(0, num a.comp), (4, a.cairnw.toNat), (8, a.bufw.toNat)
      , (12, if s.imaged then 16 - a.cairnw.toNat - a.bufw.toNat else 0)])
  | 0x0804 => some (a.seed.setWidth 32)
  | 0x0808 => some (word [(0, s.arr.degraded.toNat), (16, ((List.range 16).foldl (fun x b =>
      x + if (nth s.arr.closing b none).isSome then 2 ^ b else 0) 0))])
  | 0x080C => some (s.arr.err.setWidth 32)
  | 0x0810 => some (s.arr.irqen.setWidth 32)
  | 0x0814 => some s.arr.celast
  | 0x1000 => some (BitVec.ofNat 32 s.home.sf.length)
  | 0x1004 => some (word [(0, s.home.ht.length), (10, s.openCount fun h => h.st = .binv)])
  | 0x1008 => some (s.home.err.setWidth 32)
  | 0x100C => some (s.home.irqen.setWidth 32)
  | 0x1010 => some (s.home.errsrc.setWidth 32)
  | 0x1040 => some (word [(0, s.home.deadto.toNat), (8, s.home.retry.toNat)])
  | 0x1044 => some 0
  | 0x1048 => some s.deadSt
  | 0x1090 => some (s.home.toerr.setWidth 32)
  | 0x1094 => some (s.home.toirqen.setWidth 32)
  | 0x1098 => some (s.home.tolast.setWidth 32)
  | 0x109C => some s.home.poiscnt
  | _ => none

/-- The pinning group (R321). -/
def State.readPin (s : State) (o : Nat) : Option Word :=
  if 0x1840 ≤ o && o ≤ 0x187C then some ((nth s.cfg.pin.quota ((o - 0x1840) / 4) 0).setWidth 32)
  else if 0x1880 ≤ o && o ≤ 0x18BC then some (BitVec.ofNat 32 (s.use (BitVec.ofNat 4 ((o - 0x1880) / 4))))
  else match o with
  | 0x1800 => some (word [(0, s.cfg.pin.demrate.toNat), (4, s.cfg.pin.windows.length), (16, s.cfg.pin.thrlim.toNat)])
  | 0x1804 => some (word [(0, s.pin.cairns.length), (7, num s.pin.walk.isSome), (8, num s.demoting), (9, s.pin.q.length)])
  | 0x1808 => some (s.pin.share.setWidth 32)
  | 0x18C0 => some (s.pin.err.setWidth 32)
  | 0x18C4 => some (s.pin.irqen.setWidth 32)
  | 0x18C8 => some (s.pin.thrst.setWidth 32)
  | 0x18D0 => some s.pin.sent
  | 0x18D4 => some s.pin.rcvd
  | 0x18D8 => some (word [(0, s.pin.lostN.toNat), (16, s.pin.lostRf.toNat)])
  | 0x18DC => some ((s.pin.lost.map lineLo).getD 0)
  | 0x18E0 => some ((s.pin.lost.map fun l => setBit (lineHi l) 31).getD 0)
  | 0x1900 => some (s.pin.csel.setWidth 32)
  | 0x1904 => some ((s.selCairn.map fun c => word [(7, c.base.toNat % 2 ^ 25)]).getD 0)
  | 0x1908 => some ((s.selCairn.map fun c => word [(0, c.base.toNat / 2 ^ 25), (24, c.cls.toNat), (31, 1)]).getD 0)
  | 0x190C => some ((s.selCairn.map fun c => c.len).getD 0)
  | 0x1910 => some ((s.selCairn.map fun c => word [(0, s.cairnLines c), (31, num c.demoting)]).getD 0)
  | 0x1914 => some ((s.selCairn.map fun c => c.seq).getD 0)
  | _ => none

/-- The knead group (R353, R378). -/
def State.readKnd (s : State) (o : Nat) : Option Word :=
  let k := s.knd
  match o with
  | 0x2000 => some (word ((List.range 4).map fun n => (8 * n, (nth s.cfg.knd.lanes n 0).toNat)))
  | 0x2004 => some (s.cfg.knd.seed.setWidth 32)
  | 0x2008 => some (word [(0, k.lb.length), (6, (k.lb.filter fun e => e.2.kn && e.2.frame.isNone).length), (16, k.ft.length)])
  | 0x200C => some (k.err.setWidth 32)
  | 0x2010 => some (k.irqen.setWidth 32)
  | 0x2014 => some (k.res.setWidth 32)
  | 0x2018 => some (k.resirqen.setWidth 32)
  | 0x201C => some k.last
  | 0x2020 => some (lineLo k.lastA)
  | 0x2024 => some (lineHi k.lastA)
  | 0x2028 => some k.rescnt
  | 0x2040 => some (word [(0, k.scans.length), (4, s.colBusy), (8, num s.waitPin)])
  | 0x2044 => some (k.scerr.setWidth 32)
  | 0x2048 => some (k.scirqen.setWidth 32)
  | 0x204C => some (k.scchk.setWidth 32)
  | 0x2050 => some (k.scchken.setWidth 32)
  | 0x2054 => some k.sclast
  | 0x2058 => some k.scdup
  | 0x205C => some k.scmis
  | _ => none

/-- QOS_RVAL (R397): R' and K of the selected class at the selected port. -/
def State.qosRval (s : State) : Word :=
  let p := (fld s.qos.rsel 0 3 : BitVec 3).toNat
  let c := (fld s.qos.rsel 4 4 : BitVec 4)
  if p ≥ 6 then 0
  else word [(0, nth (nth s.qos.eff p []) c.toNat 0), (9, (BitVec.ofInt 12 (s.credit p c)).toNat)]

/-- The QoS group (R397). -/
def State.readQos (s : State) (o : Nat) : Option Word :=
  let q := s.cfg.qos
  if 0x2840 ≤ o && o ≤ 0x287C then
    let c := s.qcls ((o - 0x2840) / 4)
    some (word [(0, c.target.toNat), (16, c.base.toNat), (19, num c.gmen), (20, c.ports.toNat)])
  else if 0x2880 ≤ o && o ≤ 0x28BC then some ((s.qcls ((o - 0x2880) / 4)).res.setWidth 32)
  else if 0x28C0 ≤ o && o ≤ 0x28FC then
    let c := (o - 0x28C0) / 4
    some (word [(0, (s.qavg c).avg.toNat), (20, s.prio (BitVec.ofNat 4 c)), (24, (s.qavg c).steps.toNat)])
  else if 0x2900 ≤ o && o ≤ 0x2914 then
    let p := (o - 0x2900) / 4
    some (word [(0, nth s.qos.psum p 0), (16, if p = 5 then s.qos.pk else 0), (19, num (bit s.qos.scaled p))
      , (20, num (p = 5 && s.imaged && !s.linkUp))])
  else match o with
  | 0x2800 => some (word [(0, q.shift.toNat), (4, q.upd.toNat), (8, q.age.toNat), (16, q.iclass.toNat)])
  | 0x2804 => some (word [(0, num q.rlEn), (1, q.rlIdle.toNat), (5, q.rlStart.toNat), (7, q.rlStep.toNat)])
  | 0x2808 => some (word [(0, s.qos.scaled.toNat), (6, ((List.range 4).foldl (fun x g =>
      x + if (nth s.qos.ramp g none).isSome then 2 ^ g else 0) 0)), (10, num s.capped)])
  | 0x2920 => some (s.qos.rsel.setWidth 32)
  | 0x2924 => some s.qosRval
  | 0x2928 => some (s.qos.gmiss.setWidth 32)
  | 0x292C => some (s.qos.gmen.setWidth 32)
  | 0x2930 => some (s.qos.err.setWidth 32)
  | 0x2934 => some (s.qos.erren.setWidth 32)
  | 0x2938 => some s.qos.gmlast
  | _ => none

/-- The integrity group, the pattern store and the scree window (R175, R433). -/
def State.readChk (s : State) (o : Nat) : Option Word :=
  let c := s.cfg.chk
  if 0x3040 ≤ o && o ≤ 0x304C then some (nth s.chk.patok ((o - 0x3040) / 4) 0)
  else if 0x8000 ≤ o && o ≤ 0x9FFC then some ((tabGet s.chk.pat ((o - 0x8000) / 4)).getD 0)
  else if 0xC000 ≤ o && o ≤ 0xC03C then some (fld (s.chk.scree.headD 0) (8 * (o - 0xC000)) 32)
  else match o with
  | 0x3000 => some (word [(0, c.level.toNat), (2, num c.scrubEn), (4, c.scrubp.toNat), (16, c.suspmask.toNat)])
  | 0x3004 => some (word [(0, num c.patEn), (1, c.pint.toNat), (6, s.patValid)])
  | 0x3008 => some (word [(0, c.parlim.toNat), (16, c.reslim.toNat)])
  | 0x300C => some (s.chk.err.setWidth 32)
  | 0x3010 => some (s.chk.irqen.setWidth 32)
  | 0x3014 => some (s.chk.susp.setWidth 32)
  | 0x3018 => some s.chk.step
  | 0x301C => some (word [(0, s.chk.scree.length), (6, s.chk.lost.toNat)])
  | 0x3020 => some s.chk.cecnt
  | 0x3024 => some s.chk.uecnt
  | 0x3028 => some (word [(0, s.chk.replay.toNat), (24, s.chk.exh.toNat)])
  | 0x302C => some (s.chk.w1ccol.setWidth 32)
  | 0x3030 => some (word [(0, s.chk.pass.toNat), (16, s.chk.pos), (31, num s.scrubbing)])
  | 0x3034 => some s.chk.patst
  | 0x3050 => some s.chk.patfail
  | 0x3054 => some ((s.chk.poislast.map lineLo).getD 0)
  | 0x3058 => some ((s.chk.poislast.map fun l => setBit (lineHi l) 31).getD 0)
  | _ => none

/-- The power group (R460). -/
def State.readPwr (s : State) (o : Nat) : Option Word :=
  if 0x4020 ≤ o && o ≤ 0x4034 then some (pair16 s.cfg.ener.coef ((o - 0x4020) / 4))
  else if 0x4100 ≤ o && o ≤ 0x417C then
    let c := (o - 0x4100) / 8
    some (if o % 8 = 0 then fld (s.energy c) 0 32 else (nth s.pwr.ehi c 0).setWidth 32)
  else match o with
  | 0x4000 => some (word [(0, num s.pwr.fixed)])
  | 0x4004 => some (word [(0, num s.cfg.ener.erptEn), (1, s.cfg.ener.erper.toNat)])
  | 0x4008 => some (word [(0, num s.pwr.droop), (1, s.pwr.thr.toNat), (4, fsCode s.pwr.fstate), (6, s.capNB), (10, s.capNK)])
  | 0x400C => some (s.pwr.err.setWidth 32)
  | 0x4010 => some (s.pwr.irqen.setWidth 32)
  | _ => none

/-- The counters' registers and the user window (R457, R458, R461). -/
def State.readPmc (s : State) (o : Nat) : Option Word :=
  if 0x5000 ≤ o && o ≤ 0x54FC then
    some (if o % 8 = 0 then fld (nth s.pmc.cnt ((o - 0x5000) / 8) 0) 0 32 else s.pmc.latch.setWidth 32)
  else if 0x5500 ≤ o && o ≤ 0x59FC then
    let v := nth s.pmc.snap ((o - 0x5500) / 8) 0
    some (if o % 8 = 0 then fld v 0 32 else (fld v 32 8 : Byte).setWidth 32)
  else if 0x5A10 ≤ o && o ≤ 0x5A20 then
    let j := (o - 0x5A10) / 4
    some (word ((List.range 32).map fun b => (b, num (nth s.pmc.ovf (32 * j + b) false))))
  else if 0x5A30 ≤ o && o ≤ 0x5A40 then some (nth s.pmc.uperm ((o - 0x5A30) / 4) 0)
  else if 0x5B00 ≤ o && o ≤ 0x5FFC then
    some (if o % 8 = 0 then fld (nth s.pmc.cnt ((o - 0x5B00) / 8) 0) 0 32 else s.pmc.ulatch.setWidth 32)
  else match o with
  | 0x5A00 => some (word [(0, num s.pmc.freeze)])
  | 0x5A04 => some (word [(0, s.pmc.fcnt.toNat), (8, num s.pmc.fvalid)])
  | 0x5A08 => some (fld s.pmc.snapT 0 32)
  | 0x5A0C => some (fld s.pmc.snapT 32 32)
  | 0x5A50 => some (s.pmc.msel.setWidth 32)
  | 0x5A54 => some (if s.pmc.msel.toNat > 159 then 0 else (s.mode s.pmc.msel.toNat).setWidth 32)
  | _ => none

/-- What a read of the word at byte offset `o` returns; none at a reserved offset (R463, R464). -/
def State.regRead (s : State) (o : Nat) : Option Word :=
  (s.readRing o).orElse fun _ => (s.readCtl o).orElse fun _ => (s.readArr o).orElse fun _ => (s.readPin o).orElse fun _ =>
    (s.readKnd o).orElse fun _ => (s.readQos o).orElse fun _ => (s.readChk o).orElse fun _ => (s.readPwr o).orElse fun _ => s.readPmc o

/-! ### Lines out of the slice (R76, R136, R430, R175) -/

/-- SL_IRQ. In FENCED only line 3, of CFG_XERR and LNK_ERR. -/
def State.irqLines (s : State) : BitVec 4 :=
  let hot {n : Nat} (a b : BitVec n) : Bool := a &&& b != 0
  let link := hot s.ring.xerr s.ring.xirqen || hot s.lnk.err s.lnk.irqen
  if !s.coreUp then pack 4 [(3, num link)]
  else pack 4 [
    (0, num (hot s.ctl.irq s.ctl.irqen || hot s.pin.err s.pin.irqen || hot s.knd.err s.knd.irqen || hot s.knd.scerr s.knd.scirqen)),
    (1, num (hot s.arr.err s.arr.irqen || hot s.home.err s.home.irqen || hot s.home.toerr s.home.toirqen ||
      hot s.knd.res s.knd.resirqen || hot s.knd.scchk s.knd.scchken || hot s.chk.err s.chk.irqen)),
    (2, num (hot s.qos.gmiss s.qos.gmen || hot s.qos.err s.qos.erren)),
    (3, num (link || hot s.land.err s.land.irqen || hot s.pwr.err s.pwr.irqen))]

/-- SL_SUSPECT (R430). -/
def State.suspectLine (s : State) : Bool := s.chk.susp &&& s.cfg.chk.suspmask != 0

/-- SL_RG_SCREE_AV (R73, R175). -/
def State.screeAv (s : State) : Bool := !s.chk.scree.isEmpty

/-! ### How an access is answered (R75, R136, R458, R464, R465) -/

/-- The registers of the ring station's reset domain, which answer in FENCED (R136, R463). -/
def ringReg (o : Nat) : Bool :=
  o ≤ 0x000C || (0x0020 ≤ o && o ≤ 0x0034) || o = 0x0424 || (0x3800 ≤ o && o ≤ 0x3828)

def userWindow (o : Nat) : Bool := 0x5B00 ≤ o && o ≤ 0x5FFC

/-- A read of the user window is permitted (R458). -/
def State.permitted (s : State) (o : Nat) : Bool :=
  let i := (o - 0x5B00) / 8
  bit (nth s.pmc.uperm (i / 32) 0) (i % 32)

/-- The access is performed: rules 2 to 4 of R465 do not turn it away. -/
def State.performs (s : State) (wr : Bool) (o : Nat) : Bool :=
  (s.ctl.st != .fenced || ringReg o) && (!userWindow o || (!wr && s.permitted o)) && (s.regRead o).isSome

/-- SL_RG_APAR is the even parity of WR and ADDR (R73). -/
def aparOk (apar wr : Bool) (a : BitVec 14) : Bool := apar == (wr ^^ parity a)

/-- A read: RDY, RDATA with its parity, ERR, and the side effect of a read that is performed (R73, R75, R467). RDATA under a parity
error is not stated (assumption log 13). -/
def State.readAcc (s : State) (apar : Bool) (a : BitVec 14) (side : State → State) : State :=
  let o := 4 * a.toNat
  let out (t : State) (d : Word) (e : Bool) : State := { t with rg := ⟨d, parity d, e, true⟩ }
  if !aparOk apar false a then out s (Config.freeRdata s.ring.powcyc.toNat) true
  else if s.performs false o then out (side s) ((s.regRead o).getD 0) false
  else out s 0 true

end Sys2Proof.Machine
end

