-- ==== Sys2Proof/Machine/Writes.lean ====
section
/-! DEFINITION. Register writes: the access types of R14, the commands behind WO fields, and the rows of the table that are register
accesses (02 R73 to R75, 05 R151 and R152, 08 R255 and R259, 14 R432, 15 R455 to R458, 16 R464 to R467). -/
namespace Sys2Proof.Machine

/-! ### W1C registers (R14, R432) -/

/-- A W1C register after a write of `d`, with `hw` the bits hardware sets in the same cycle: a bit set and cleared together stays
set. -/
def w1c {n : Nat} (old : BitVec n) (d hw : Word) : BitVec n := (old &&& ~~~d.setWidth n) ||| (hw.setWidth n &&& d.setWidth n)

/-- Bits that collide (R432). -/
def collisions (n : Nat) (d hw : Word) : Nat := ones (hw.setWidth n &&& d.setWidth n)

/-- CHK_W1CCOL counts the colliding bits, but not in FENCED. -/
def State.collide (s : State) (k : Nat) : State :=
  if s.ctl.st = .fenced then s else { s with chk.w1ccol := satAdd s.chk.w1ccol k }

/-- A write of a W1C register, where one lies at byte offset `o`. -/
def State.writeW1c (s : State) (o : Nat) (d hw : Word) : Option State :=
  match o with
  | 0x0028 => some ({ s with ring.rstcause := w1c s.ring.rstcause d hw }.collide (collisions 4 d hw))
  | 0x0030 => some ({ s with ring.xerr := w1c s.ring.xerr d hw }.collide (collisions 6 d hw))
  | 0x0114 => some ({ s with land.err := w1c s.land.err d hw }.collide (collisions 5 d hw))
  | 0x0430 => some ({ s with ctl.irq := w1c s.ctl.irq d hw }.collide (collisions 4 d hw))
  | 0x080C => some ({ s with arr.err := w1c s.arr.err d hw }.collide (collisions 5 d hw))
  | 0x1008 => some ({ s with home.err := w1c s.home.err d hw }.collide (collisions 4 d hw))
  | 0x1090 => some ({ s with home.toerr := w1c s.home.toerr d hw }.collide (collisions 7 d hw))
  | 0x18C0 => some ({ s with pin.err := w1c s.pin.err d hw }.collide (collisions 10 d hw))
  | 0x200C => some ({ s with knd.err := w1c s.knd.err d hw }.collide (collisions 6 d hw))
  | 0x2014 => some ({ s with knd.res := w1c s.knd.res d hw }.collide (collisions 3 d hw))
  | 0x2044 => some ({ s with knd.scerr := w1c s.knd.scerr d hw }.collide (collisions 3 d hw))
  | 0x204C => some ({ s with knd.scchk := w1c s.knd.scchk d hw }.collide (collisions 3 d hw))
  | 0x2928 => some ({ s with qos.gmiss := w1c s.qos.gmiss d hw }.collide (collisions 16 d hw))
  | 0x2930 => some ({ s with qos.err := w1c s.qos.err d hw }.collide (collisions 2 d hw))
  | 0x300C => some ({ s with chk.err := w1c s.chk.err d hw }.collide (collisions 12 d hw))
  | 0x3014 => some ({ s with chk.susp := w1c s.chk.susp d hw }.collide (collisions 8 d hw))
  | 0x3818 => some ({ s with lnk.err := w1c s.lnk.err d hw }.collide (collisions 5 d hw))
  | 0x400C => some ({ s with pwr.err := w1c s.pwr.err d hw }.collide (collisions 4 d hw))
  | _ =>
    if 0x5A10 ≤ o && o ≤ 0x5A20 then
      let j := (o - 0x5A10) / 4
      let now := (List.range 160).map fun i =>
        let b := i % 32
        if i / 32 = j then (nth s.pmc.ovf i false && !bit d b) || (bit d b && bit hw b) else nth s.pmc.ovf i false
      some ({ s with pmc.ovf := now }.collide (collisions 32 d hw))
    else none

/-! ### RW registers -/

/-- Enables: RW fields of one register, at the bit positions of its status register. -/
def State.writeEnable (s : State) (o : Nat) (d : Word) : Option State :=
  match o with
  | 0x0034 => some { s with ring.xirqen := d.setWidth 6 }
  | 0x0118 => some { s with land.irqen := d.setWidth 5 }
  | 0x0434 => some { s with ctl.irqen := d.setWidth 4 }
  | 0x0810 => some { s with arr.irqen := d.setWidth 5 }
  | 0x100C => some { s with home.irqen := d.setWidth 4 }
  | 0x1094 => some { s with home.toirqen := d.setWidth 7 }
  | 0x18C4 => some { s with pin.irqen := d.setWidth 10 }
  | 0x2010 => some { s with knd.irqen := d.setWidth 6 }
  | 0x2018 => some { s with knd.resirqen := d.setWidth 3 }
  | 0x2048 => some { s with knd.scirqen := d.setWidth 3 }
  | 0x2050 => some { s with knd.scchken := d.setWidth 3 }
  | 0x292C => some { s with qos.gmen := d.setWidth 16 }
  | 0x2934 => some { s with qos.erren := d.setWidth 2 }
  | 0x3010 => some { s with chk.irqen := d.setWidth 12 }
  | 0x381C => some { s with lnk.irqen := d.setWidth 5 }
  | 0x4010 => some { s with pwr.irqen := d.setWidth 4 }
  | _ => none

/-- A write of the tally base or CFG_LANDCFG: ignored, with CFGREJ, while writes are held or counts unsent (R293). -/
def State.landWrite (s : State) (t : State) : State :=
  if s.landHeld != 0 || s.landUnsent then { s with land.err := setBit s.land.err 4 } else t

/-- The fields of CFG_LANDCFG lie in their ranges (R293). -/
def landcfgOk (d : Word) : Bool :=
  let f (i : Nat) : Nat := (fld d i 4 : BitVec 4).toNat
  f 0 ≤ 8 && 6 ≤ f 4 && 6 ≤ f 8

/-- COH_CFG: each field takes a value of its range and ignores others (R260). -/
def State.cohCfg (s : State) (d : Word) : State :=
  let dl : BitVec 5 := fld d 0 5
  let re : BitVec 5 := fld d 8 5
  { s with home.deadto := if 14 ≤ dl.toNat && dl.toNat ≤ 24 then dl else s.home.deadto
           home.retry := if 6 ≤ re.toNat && re.toNat ≤ 12 then re else s.home.retry }

/-- The other registers with RW fields. -/
def State.writeRw (s : State) (o : Nat) (d : Word) : Option State :=
  match o with
  | 0x0100 => some { s with land.strict := bit d 0 }
  | 0x0104 => some (s.landWrite { s with land.ltLo := d &&& 0xFFFFE003 })
  | 0x0108 => some (s.landWrite { s with land.ltHi := d &&& 0x000FFFFF })
  | 0x010C => some (s.landWrite (if landcfgOk d then { s with land.landcfg := d &&& 0xFFFF } else s))
  | 0x1040 => some (s.cohCfg d)
  | 0x1900 => some { s with pin.csel := d.setWidth 6 }
  | 0x2920 => some { s with qos.rsel := d.setWidth 8 &&& 0xF7 }
  | 0x4000 => some { s with pwr.fixed := bit d 0 }
  | 0x5A50 => some { s with pmc.msel := d.setWidth 8 }
  | _ =>
    if 0x5A30 ≤ o && o ≤ 0x5A40 then some { s with pmc.uperm := upd s.pmc.uperm ((o - 0x5A30) / 4) fun _ => d }
    else if 0x8000 ≤ o && o ≤ 0x9FFC then some (s.patWrite ((o - 0x8000) / 4) d)
    else none

/-! ### Commands behind WO fields -/

/-- LNK_CTL (R109, R149): HOLD_DOWN takes its value, then RETRAIN starts training. -/
def State.linkCtl (s : State) (d : Word) : State :=
  let hold := bit d 1
  let t := { s with lnk.hold := hold }
  let t := if hold then t.holdLink else if s.lnk.hold then t.relink else t
  if bit d 0 then t.retrainCmd else t

/-- PMC_CTL (R455, R456): the snapshot is taken before the clear. -/
def State.pmcCtl (s : State) (d : Word) : State :=
  let s1 := if bit d 1 then { s with pmc.snap := s.pmc.cnt, pmc.snapT := s.ring.powcyc } else s
  let s2 := if bit d 2 then
      { s1 with pmc.cnt := List.replicate 160 0, pmc.ovf := List.replicate 160 false, pmc.skip := true }
    else s1
  { s2 with pmc.freeze := bit d 0, pmc.skip := s2.pmc.skip || (s.pmc.freeze && !bit d 0) }

/-- States in which a declaration is accepted (R255). -/
def State.declares (s : State) : Bool :=
  s.ctl.st = .running || s.ctl.st = .quiescing || s.ctl.st = .quiesced || s.ctl.st = .draining || s.ctl.st = .drained

def State.deadRow (s : State) (a : Id12) : Option Nat :=
  (List.range 16).find? fun k => (s.home.dead[k]?).any fun d => d.valid && d.agent = a

/-- The first free row of the dead table. -/
def State.deadFree (s : State) : Option Nat := (List.range 16).find? fun k => (s.home.dead[k]?).any fun d => !d.valid

/-- An open entry waits on an agent: as OWN, or for payload of the agent that is not all held (R255). -/
def State.waitsOn (s : State) (h : Ht) (a : Id12) : Bool :=
  (h.own = some a && h.expect && h.ans.isNone) ||
    (h.st = .wb && !h.tw && match h.why with
      | .req r => !r.name.sty && r.name.src = a && !s.payReady r
      | _ => false)

/-- A declaration (R255, R256). -/
def State.declare (s : State) (a : Id12) (np : BitVec 2) (k : Nat) : State :=
  let s := { s with home.dead := upd s.home.dead k fun _ =>
    { agent := a, np, done := false, valid := true, left := 8192, opens := s.home.ht.map fun (e : Nat × Ht) => e.1 } }
  s.home.ht.foldl (fun (s : State) (e : Nat × Ht) =>
    match tabGet s.home.ht e.1 with
    | some h => if s.waitsOn h a then s.expire e.1 h else s
    | none => s) s

/-- COH_DEADCMD (R255, R259, R260). The NP field of a release has no effect: the manual does not say whether the refusal of NP 0b11 covers it
(DESIGN CHOICE: log 104). -/
def State.deadCmd (s : State) (d : Word) : State :=
  let a : Id12 := fld d 0 12
  let np : BitVec 2 := fld d 12 2
  match (fld d 14 2 : BitVec 2).toNat with
  | 1 =>
    if !s.declares || np = 3 || (s.deadRow a).isSome then s.tobit 5
    else match s.deadFree with
      | none => s.tobit 4
      | some k => s.declare a np k
  | 2 =>
    match s.deadRow a with
    | some k =>
      if ((s.home.dead[k]?).map fun (x : Dead) => x.done).getD false then { s with home.dead := upd s.home.dead k fun _ => .reset } else s.tobit 5
    | none => s.tobit 5
  | _ => s.tobit 5

/-- A write that is performed at byte offset `o`; a register of RO fields only changes nothing (R466). -/
def State.regWrite (s : State) (o : Nat) (d hw : Word) : State :=
  match o with
  | 0x0404 => s.command (fld d 0 4)
  | 0x0408 => s.imgData d
  | 0x1044 => s.deadCmd d
  | 0x3800 => s.linkCtl d
  | 0x5A00 => s.pmcCtl d
  | _ => ((s.writeW1c o d hw).orElse fun _ => (s.writeEnable o d).orElse fun _ => s.writeRw o d).getD s

/-- A write access (R75, R465). -/
def State.writeAcc (s : State) (p : Par) (a : BitVec 14) (d hw : Word) : State :=
  let o := 4 * a.toNat
  if aparOk p.apar true a && p.wpar == parity d && s.performs true o then { s.regWrite o d hw with rg.err := false, rg.rdy := true }
  else { s with rg.err := true, rg.rdy := true }

/-! ### Side effects of reads (R117, R449, R457, R458, R175) -/

def State.latchPow (s : State) : State := { s with ring.powHi := fld s.ring.powcyc 32 32 }

def State.latchEnergy (c : BitVec 4) (s : State) : State :=
  { s with pwr.ehi := upd s.pwr.ehi c.toNat fun _ => fld (s.energy c.toNat) 32 16 }

def State.latchCnt (i : Nat) (s : State) : State := { s with pmc.latch := fld (nth s.pmc.cnt i 0) 32 8 }

def State.latchUser (i : Nat) (s : State) : State := { s with pmc.ulatch := fld (nth s.pmc.cnt i 0) 32 8 }

/-- The oldest unread scree record is retired. -/
def State.retire (s : State) : State := { s with chk.scree := s.chk.scree.drop 1 }

/-- The word address of a byte offset. -/
def wordAddr (o : Nat) : BitVec 14 := BitVec.ofNat 14 (o / 4)

/-- A register access reaches the port in every state but OFF, in which nothing is clocked. -/
def State.reg (s : State) (t : State) : Host.Outcome State Fault Refusal := s.when (s.ctl.st != .off) t

/-! ### Firmware commands (R151) -/

/-- LOAD. -/
def execLoad (p : Par) (s : State) : Host.Outcome State Fault Refusal := s.reg (s.writeAcc p (wordAddr 0x0404) 1 0)

/-- IMAGE_WORD. -/
def execImageWord (p : Par) (d : Word) (s : State) : Host.Outcome State Fault Refusal := s.reg (s.writeAcc p (wordAddr 0x0408) d 0)

/-- ABORT. -/
def execAbort (p : Par) (s : State) : Host.Outcome State Fault Refusal := s.reg (s.writeAcc p (wordAddr 0x0404) 2 0)

/-- QUIESCE. -/
def execQuiesce (p : Par) (s : State) : Host.Outcome State Fault Refusal := s.reg (s.writeAcc p (wordAddr 0x0404) 3 0)

/-- RESUME. -/
def execResume (p : Par) (s : State) : Host.Outcome State Fault Refusal := s.reg (s.writeAcc p (wordAddr 0x0404) 4 0)

/-- EPOCH. -/
def execEpoch (p : Par) (s : State) : Host.Outcome State Fault Refusal := s.reg (s.writeAcc p (wordAddr 0x0404) 5 0)

/-- DRAIN. -/
def execDrain (p : Par) (s : State) : Host.Outcome State Fault Refusal := s.reg (s.writeAcc p (wordAddr 0x0404) 6 0)

/-- UNSHAPE. -/
def execUnshape (p : Par) (s : State) : Host.Outcome State Fault Refusal := s.reg (s.writeAcc p (wordAddr 0x0404) 7 0)

/-! ### Other rows that are register writes -/

/-- DECLARE (R255). -/
def execDeclare (p : Par) (agent : Id12) (np : BitVec 2) (s : State) : Host.Outcome State Fault Refusal :=
  s.reg (s.writeAcc p (wordAddr 0x1044) (word [(0, agent.toNat), (12, np.toNat), (14, 1)]) 0)

/-- RELEASE (R259). -/
def execRelease (p : Par) (agent : Id12) (s : State) : Host.Outcome State Fault Refusal :=
  s.reg (s.writeAcc p (wordAddr 0x1044) (word [(0, agent.toNat), (14, 2)]) 0)

/-- RETRAIN (R109); `hold` is the HOLD_DOWN bit of the same write. -/
def execRetrain (p : Par) (hold : Bool) (s : State) : Host.Outcome State Fault Refusal :=
  s.reg (s.writeAcc p (wordAddr 0x3800) (word [(0, 1), (1, num hold)]) 0)

/-- HOLD_DOWN (R109, R149). -/
def execHoldDown (p : Par) (hold : Bool) (s : State) : Host.Outcome State Fault Refusal :=
  s.reg (s.writeAcc p (wordAddr 0x3800) (word [(1, num hold)]) 0)

/-- FREEZE (R455). -/
def execFreeze (p : Par) (v : Bool) (s : State) : Host.Outcome State Fault Refusal :=
  s.reg (s.writeAcc p (wordAddr 0x5A00) (word [(0, num v)]) 0)

/-- SNAP (R456), alone or with CLR; `frz` is the FREEZE bit of the same write. -/
def execSnap (p : Par) (frz clr : Bool) (s : State) : Host.Outcome State Fault Refusal :=
  s.reg (s.writeAcc p (wordAddr 0x5A00) (word [(0, num frz), (1, 1), (2, num clr)]) 0)

/-- CLR (R456). -/
def execClr (p : Par) (frz : Bool) (s : State) : Host.Outcome State Fault Refusal :=
  s.reg (s.writeAcc p (wordAddr 0x5A00) (word [(0, num frz), (2, 1)]) 0)

/-- The side effect of a read at a byte offset (R467): none but at the registers that latch or retire. -/
def State.readSide (o : Nat) (s : State) : State :=
  if o = 0x0020 then s.latchPow
  else if 0x4100 ≤ o && o ≤ 0x4178 && o % 8 = 0 then s.latchEnergy (BitVec.ofNat 4 ((o - 0x4100) / 8))
  else if 0x5000 ≤ o && o ≤ 0x54F8 && o % 8 = 0 then s.latchCnt ((o - 0x5000) / 8)
  else if 0x5B00 ≤ o && o ≤ 0x5FF8 && o % 8 = 0 then s.latchUser ((o - 0x5B00) / 8)
  else if o = 0xC03C then s.retire
  else s

/-- REGISTER_WRITE (R14, R465); `hw` names the W1C bits hardware sets in the same cycle (R432). An access with SL_RG_WR at 0 is a read (R464,
R466, R467; log 112). -/
def execRegisterWrite (p : RgAcc) (a : BitVec 14) (d hw : Word) (s : State) : Host.Outcome State Fault Refusal :=
  s.reg (if p.wr then s.writeAcc p.par a d hw else s.readAcc p.par.apar a (State.readSide (4 * a.toNat)))

/-- PATTERN_STORE_WRITE (R424). -/
def execPatternStoreWrite (p : Par) (i : BitVec 11) (d : Word) (s : State) : Host.Outcome State Fault Refusal :=
  s.reg (s.writeAcc p (wordAddr (0x8000 + 4 * i.toNat)) d 0)

/-! ### Reads with a side effect (R467) -/

/-- POWCYC_LO_READ (R117). -/
def execPowcycLoRead (apar : Bool) (s : State) : Host.Outcome State Fault Refusal :=
  s.reg (s.readAcc apar (wordAddr 0x0020) State.latchPow)

/-- PWR_E_LO_READ (R449). -/
def execPwrELoRead (apar : Bool) (c : BitVec 4) (s : State) : Host.Outcome State Fault Refusal :=
  s.reg (s.readAcc apar (wordAddr (0x4100 + 8 * c.toNat)) (State.latchEnergy c))

/-- PMC_CNT_LO_READ (R457). -/
def execPmcCntLoRead (apar : Bool) (i : Nat) (s : State) : Host.Outcome State Fault Refusal :=
  s.when (s.ctl.st != .off && i < 160) (s.readAcc apar (wordAddr (0x5000 + 8 * i)) (State.latchCnt i))

/-- PMC_U_LO_READ (R458). -/
def execPmcULoRead (apar : Bool) (i : Nat) (s : State) : Host.Outcome State Fault Refusal :=
  s.when (s.ctl.st != .off && i < 160) (s.readAcc apar (wordAddr (0x5B00 + 8 * i)) (State.latchUser i))

/-- SCREE_RETIRE (R175): the oldest unread record is retired. -/
def execScreeRetire (apar : Bool) (s : State) : Host.Outcome State Fault Refusal :=
  s.reg (s.readAcc apar (wordAddr 0xC03C) State.retire)

end Sys2Proof.Machine
end

