-- ==== Sys2Proof/Machine/Dispatch.lean ====
section
/-! DEFINITION. One arm per command: the meaning it has. -/
namespace Sys2Proof.Machine

/-- The effect of a command on everything but the queue of waiting commands. -/
def exec (i : Instr) (s : State) : Host.Outcome State Fault Refusal :=
  match i with
  | .load p => Sys2Proof.Machine.execLoad p s
  | .imageWord p d => Sys2Proof.Machine.execImageWord p d s
  | .imageCheckDone => Sys2Proof.Machine.execImageCheckDone s
  | .imageApplyDone => Sys2Proof.Machine.execImageApplyDone s
  | .initializingDone fails => Sys2Proof.Machine.execInitializingDone fails s
  | .abort p => Sys2Proof.Machine.execAbort p s
  | .quiesce p => Sys2Proof.Machine.execQuiesce p s
  | .quiescedReached => Sys2Proof.Machine.execQuiescedReached s
  | .resume p => Sys2Proof.Machine.execResume p s
  | .epoch p => Sys2Proof.Machine.execEpoch p s
  | .epochDone => Sys2Proof.Machine.execEpochDone s
  | .drain p => Sys2Proof.Machine.execDrain p s
  | .drainedReached => Sys2Proof.Machine.execDrainedReached s
  | .unshape p => Sys2Proof.Machine.execUnshape p s
  | .declare p agent np => Sys2Proof.Machine.execDeclare p agent np s
  | .release p agent => Sys2Proof.Machine.execRelease p agent s
  | .retrain p hold => Sys2Proof.Machine.execRetrain p hold s
  | .holdDown p hold => Sys2Proof.Machine.execHoldDown p hold s
  | .freeze p v => Sys2Proof.Machine.execFreeze p v s
  | .snap p frz clr => Sys2Proof.Machine.execSnap p frz clr s
  | .clr p frz => Sys2Proof.Machine.execClr p frz s
  | .registerWrite p a d hw => Sys2Proof.Machine.execRegisterWrite p a d hw s
  | .patternStoreWrite p j d => Sys2Proof.Machine.execPatternStoreWrite p j d s
  | .powcycLoRead apar => Sys2Proof.Machine.execPowcycLoRead apar s
  | .pwrELoRead apar c => Sys2Proof.Machine.execPwrELoRead apar c s
  | .pmcCntLoRead apar j => Sys2Proof.Machine.execPmcCntLoRead apar j s
  | .pmcULoRead apar j => Sys2Proof.Machine.execPmcULoRead apar j s
  | .screeRetire apar => Sys2Proof.Machine.execScreeRetire apar s
  | .ijtagAccess => Sys2Proof.Machine.execIjtagAccess s
  | .bypass code => Sys2Proof.Machine.execBypass code s
  | .tapReset => Sys2Proof.Machine.execTapReset s
  | .ringResetAssert tst => Sys2Proof.Machine.execRingResetAssert tst s
  | .ringResetDeassert slice die edge itag => Sys2Proof.Machine.execRingResetDeassert slice die edge itag s
  | .coreResetAssert => Sys2Proof.Machine.execCoreResetAssert s
  | .coreResetExit => Sys2Proof.Machine.execCoreResetExit s
  | .mpResetAssert => Sys2Proof.Machine.execMpResetAssert s
  | .mpResetDeassert => Sys2Proof.Machine.execMpResetDeassert s
  | .phyResetAssert => Sys2Proof.Machine.execPhyResetAssert s
  | .phyResetDeassert => Sys2Proof.Machine.execPhyResetDeassert s
  | .mckStop => Sys2Proof.Machine.execMckStop s
  | .pckStop => Sys2Proof.Machine.execPckStop s
  | .droopAssert => Sys2Proof.Machine.execDroopAssert s
  | .droopLift => Sys2Proof.Machine.execDroopLift s
  | .throttleTaken l => Sys2Proof.Machine.execThrottleTaken l s
  | .freqReqHigh recent => Sys2Proof.Machine.execFreqReqHigh recent s
  | .freqDeferEnd => Sys2Proof.Machine.execFreqDeferEnd s
  | .freqPrepDone => Sys2Proof.Machine.execFreqPrepDone s
  | .freqReqLow => Sys2Proof.Machine.execFreqReqLow s
  | .energyReport => Sys2Proof.Machine.execEnergyReport s
  | .counterWrap j => Sys2Proof.Machine.execCounterWrap j s
  | .ringFlitArrival d f par lat => Sys2Proof.Machine.execRingFlitArrival d f par lat s
  | .insertionTimeout d => Sys2Proof.Machine.execInsertionTimeout d s
  | .ringInject d lat => Sys2Proof.Machine.execRingInject d lat s
  | .nearPortReceive n fs => Sys2Proof.Machine.execNearPortReceive n fs s
  | .nearPortCredit n crd => Sys2Proof.Machine.execNearPortCredit n crd s
  | .nearPortTransmit n lat => Sys2Proof.Machine.execNearPortTransmit n lat s
  | .portGrant p d => Sys2Proof.Machine.execPortGrant p d s
  | .requestDecode src bus => Sys2Proof.Machine.execRequestDecode src bus s
  | .payloadArrival src => Sys2Proof.Machine.execPayloadArrival src s
  | .payloadTimeout src => Sys2Proof.Machine.execPayloadTimeout src s
  | .readShared l c => Sys2Proof.Machine.execReadShared l c s
  | .readUnique l c => Sys2Proof.Machine.execReadUnique l c s
  | .readOnce l c => Sys2Proof.Machine.execReadOnce l c s
  | .cleanUnique l c => Sys2Proof.Machine.execCleanUnique l c s
  | .writeBack l c => Sys2Proof.Machine.execWriteBack l c s
  | .evictClean l c => Sys2Proof.Machine.execEvictClean l c s
  | .writeUnique l c => Sys2Proof.Machine.execWriteUnique l c s
  | .finalWrite l => Sys2Proof.Machine.execFinalWrite l s
  | .moveReceive l => Sys2Proof.Machine.execMoveReceive l s
  | .zeroLine l c => Sys2Proof.Machine.execZeroLine l c s
  | .atomic l c => Sys2Proof.Machine.execAtomic l c s
  | .reduce l c => Sys2Proof.Machine.execReduce l c s
  | .scan => Sys2Proof.Machine.execScan s
  | .invRange => Sys2Proof.Machine.execInvRange s
  | .invRangeLine j g c => Sys2Proof.Machine.execInvRangeLine j g c s
  | .digest => Sys2Proof.Machine.execDigest s
  | .digestLineRead g c => Sys2Proof.Machine.execDigestLineRead g c s
  | .pin => Sys2Proof.Machine.execPin s
  | .unpin => Sys2Proof.Machine.execUnpin s
  | .snpRspI => Sys2Proof.Machine.execSnpRspI s
  | .snpRspS => Sys2Proof.Machine.execSnpRspS s
  | .snpRspSFwd => Sys2Proof.Machine.execSnpRspSFwd s
  | .snpRspOFwd => Sys2Proof.Machine.execSnpRspOFwd s
  | .snpRspIFwd => Sys2Proof.Machine.execSnpRspIFwd s
  | .snpRspIFwdD => Sys2Proof.Machine.execSnpRspIFwdD s
  | .snpRspSData => Sys2Proof.Machine.execSnpRspSData s
  | .snpRspIData => Sys2Proof.Machine.execSnpRspIData s
  | .snpSwept => Sys2Proof.Machine.execSnpSwept s
  | .snoopResend e => Sys2Proof.Machine.execSnoopResend e s
  | .deadAgentTimeout e => Sys2Proof.Machine.execDeadAgentTimeout e s
  | .reclaimWalkStart => Sys2Proof.Machine.execReclaimWalkStart s
  | .reclaimWalkVisit => Sys2Proof.Machine.execReclaimWalkVisit s
  | .missIssue tag => Sys2Proof.Machine.execMissIssue tag s
  | .missRegisterRetry e => Sys2Proof.Machine.execMissRegisterRetry e s
  | .memCmdTransfer => Sys2Proof.Machine.execMemCmdTransfer s
  | .memWriteDataTransfer => Sys2Proof.Machine.execMemWriteDataTransfer s
  | .memReadData tag data pois crv crust par => Sys2Proof.Machine.execMemReadData tag data pois crv crust par s
  | .memWriteCompletion tag err par => Sys2Proof.Machine.execMemWriteCompletion tag err par s
  | .memReadTimeout tag => Sys2Proof.Machine.execMemReadTimeout tag s
  | .memWriteTimeout tag => Sys2Proof.Machine.execMemWriteTimeout tag s
  | .placementResume e => Sys2Proof.Machine.execPlacementResume e s
  | .correctedRewrite bank => Sys2Proof.Machine.execCorrectedRewrite bank s
  | .errorWindowEnd => Sys2Proof.Machine.execErrorWindowEnd s
  | .scrubStep fs => Sys2Proof.Machine.execScrubStep fs s
  | .wayCloseVisit bank => Sys2Proof.Machine.execWayCloseVisit bank s
  | .pinWalkVisit bank => Sys2Proof.Machine.execPinWalkVisit bank s
  | .unpinWalkVisit bank => Sys2Proof.Machine.execUnpinWalkVisit bank s
  | .demotionStep c => Sys2Proof.Machine.execDemotionStep c s
  | .thrashWindowEnd => Sys2Proof.Machine.execThrashWindowEnd s
  | .epochSfWalkVisit => Sys2Proof.Machine.execEpochSfWalkVisit s
  | .epochTagWalkVisit bank => Sys2Proof.Machine.execEpochTagWalkVisit bank s
  | .moveSend e => Sys2Proof.Machine.execMoveSend e s
  | .moveComplete => Sys2Proof.Machine.execMoveComplete s
  | .moveResend e => Sys2Proof.Machine.execMoveResend e s
  | .kneadCommit e r => Sys2Proof.Machine.execKneadCommit e r s
  | .lineBufferWriteback j => Sys2Proof.Machine.execLineBufferWriteback j s
  | .scanColumnStart col => Sys2Proof.Machine.execScanColumnStart col s
  | .scanRow col seen kc vc => Sys2Proof.Machine.execScanRow col seen kc vc s
  | .scanComplete => Sys2Proof.Machine.execScanComplete s
  | .landingFlushTimer g => Sys2Proof.Machine.execLandingFlushTimer g s
  | .tallyAddComplete => Sys2Proof.Machine.execTallyAddComplete s
  | .tallyReadComplete => Sys2Proof.Machine.execTallyReadComplete s
  | .tallySubComplete => Sys2Proof.Machine.execTallySubComplete s
  | .tallyPoll g => Sys2Proof.Machine.execTallyPoll g s
  | .tallyRetry g => Sys2Proof.Machine.execTallyRetry g s
  | .tallyTimeout g => Sys2Proof.Machine.execTallyTimeout g s
  | .qosWindowEnd => Sys2Proof.Machine.execQosWindowEnd s
  | .bankGroupIdle g => Sys2Proof.Machine.execBankGroupIdle g s
  | .rampLevelStep g => Sys2Proof.Machine.execRampLevelStep g s
  | .patternRunDue => Sys2Proof.Machine.execPatternRunDue s
  | .patternRun wrong => Sys2Proof.Machine.execPatternRun wrong s
  | .detectEnd fesense => Sys2Proof.Machine.execDetectEnd fesense s
  | .ts1Recognised => Sys2Proof.Machine.execTs1Recognised s
  | .noPartnerTimeout => Sys2Proof.Machine.execNoPartnerTimeout s
  | .lanechkEnd obs => Sys2Proof.Machine.execLanechkEnd obs s
  | .capexDone pcap pgood maxr pmaxr => Sys2Proof.Machine.execCapexDone pcap pgood maxr pmaxr s
  | .phyRateReady => Sys2Proof.Machine.execPhyRateReady s
  | .phyTimeout => Sys2Proof.Machine.execPhyTimeout s
  | .prbsEnd errs ppass => Sys2Proof.Machine.execPrbsEnd errs ppass s
  | .alignDone => Sys2Proof.Machine.execAlignDone s
  | .trainPhaseTimeout ph => Sys2Proof.Machine.execTrainPhaseTimeout ph s
  | .saddleFrameReceive hdr slots ctl fecBad => Sys2Proof.Machine.execSaddleFrameReceive hdr slots ctl fecBad s
  | .saddleFrameSend bad => Sys2Proof.Machine.execSaddleFrameSend bad s
  | .saddleSignalLoss lane => Sys2Proof.Machine.execSaddleSignalLoss lane s
  | .saddleSymbolThreshold lane => Sys2Proof.Machine.execSaddleSymbolThreshold lane s
  | .retrainTimeout => Sys2Proof.Machine.execRetrainTimeout s
  | .mckAlive => Sys2Proof.Machine.execMckAlive s
  | .pckAlive => Sys2Proof.Machine.execPckAlive s
  | .ijtagInstrumentAccess ins update => Sys2Proof.Machine.execIjtagInstrumentAccess ins update s

end Sys2Proof.Machine
end

