-- ==== Sys2Proof/Safety.lean ====
section
/-! DEFINITION. What a sound state of the slice is, and the words the statements use: the canonical form of the sparse tables,
the forms that the control plane, the frequency handshake and the scree buffer keep, and what it is for a command to be carried
out. -/
namespace Sys2Proof.Machine

/-! ### Canonical form of the sparse tables -/

/-- Every table that lists only what differs from its resting value is in its one canonical form: keys strictly rising, and no
entry that says what an unlisted key says (no Invalid frame, no empty snoop-filter entry, no landing entry at its reset value,
no pattern word 0). Equal contents are then equal data. -/
def State.canonical (s : State) : Bool :=
  tabSorted s.arr.frames && tabSorted s.arr.ceCnt && tabSorted s.mp.miss && tabSorted s.home.sf && tabSorted s.home.ht &&
    tabSorted s.knd.lb && tabSorted s.knd.ft && tabSorted s.pin.cairns && tabSorted s.land.tab && tabSorted s.chk.pat &&
    (s.arr.frames.all fun p => p.2.fmt != .invalid) && (s.home.sf.all fun p => !p.2.empty) &&
    (s.land.tab.all fun p => !p.2.isReset) && (s.chk.pat.all fun p => p.2 != 0)

/-! ### Forms kept by every step -/

/-- The state of the slice agrees with its reset and with its load (R140, R141, R151, R174): OFF is where SL_RS_RST_N is
asserted; in LOADING the origin is a state LOAD may leave and a phase of the load runs; outside it neither is set. -/
def State.controlled (s : State) : Prop :=
  (s.ctl.st = .off ↔ s.ring.rsRst = true) ∧
    (s.ctl.st = .loading →
      (s.ctl.lorig = .shapeless ∨ s.ctl.lorig = .quiesced ∨ s.ctl.lorig = .drained) ∧ s.ctl.phase ≠ .none) ∧
    (s.ctl.st ≠ .loading → s.ctl.lorig = .off ∧ s.ctl.phase = .none)

/-- SL_PW_FREQ_ACK and FSTATE agree, and only a request that is high is prepared, deferred or acknowledged (R440, R441). -/
def State.handshake (s : State) : Prop :=
  (s.pwr.ack = true ↔ s.pwr.fstate = .acked) ∧ (s.pwr.fstate = .idle ∨ s.pwr.req = true)

/-- The scree buffer holds at most 32 unread records (R427). -/
def State.screeFits (s : State) : Prop := s.chk.scree.length ≤ 32

/-! ### Carrying out a command -/

/-- Command `c`, carried out in `s`, leaves `t`, the queue of waiting commands being that of `s`. -/
def Carries (c : Instr) (s t : State) : Prop := exec c s = .next { t with pending := s.pending }

/-- Command `c`, carried out in `s`, leaves a state of which `P` holds. -/
def Leaves (c : Instr) (s : State) (P : State → Prop) : Prop := ∃ t, exec c s = .next t ∧ P t

/-- The parity bits with which the register master writes `d` to byte offset `o` (R73): even parity of WR with ADDR, and of
WDATA. -/
def goodPar (o : Nat) (d : Word) : Par := ⟨true ^^ parity (wordAddr o), parity d⟩

/-- The parity bit with which the register master reads byte offset `o`. -/
def goodRead (o : Nat) : Bool := parity (wordAddr o)

/-- What the register port shows after a write that completes with SL_RG_ERR at 0. -/
def State.wrote (s : State) : State := { s with rg.err := false, rg.rdy := true }

/-- No array access, knead operation, scan row, proof run or walk step is held back by the frequency handshake (R441). -/
abbrev State.starts (s : State) : Prop := s.pwr.fstate ≠ .preparing ∧ s.pwr.fstate ≠ .acked

/-- No word has been struck by an upset that an access has not met: neither in the arrays nor in the line buffer or on an internal bus. -/
abbrev State.noUpsets (s : State) : Prop := s.arr.struck = [] ∧ s.chk.upsets = []

/-- Nothing waits for what another entry holds, for its bank, or for entries of the ejection queues, so that a command that frees some
has nobody to wake. -/
abbrev State.nothingWaits (s : State) : Prop :=
  (∀ e ∈ s.home.ht, e.2.sw = false ∧ e.2.lk = false ∧ e.2.bw = false ∧ e.2.sfw = false) ∧ ∀ e ∈ s.land.tab, e.2.due = false

/-- Every INV_RANGE in service has a line to come, or one that is open (R477). -/
abbrev State.invsGoOn (s : State) : Prop :=
  ∀ j ∈ s.home.invs, (∃ p ∈ j.next, p < j.r.len.toNat) ∨ ∃ e ∈ s.home.ht, e.2.why = .inv j.r

/-- LX12 mode and the crust checks at read-outs are off, one map is in force, and no word has been struck. -/
abbrev State.calm (s : State) : Prop :=
  s.starts ∧ s.noUpsets ∧ s.arr.locks = [] ∧ s.cfg.compat = false ∧ s.cfg.prevMap = none ∧ s.cfg.chk.level.toNat < 2 ∧ s.mp.miss = [] ∧
    (∀ e ∈ s.land.tab, e.2.due = false) ∧ tabSorted s.arr.frames = true ∧ tabSorted s.home.sf = true

/-- The same, and no reclaim walk is under way. -/
abbrev State.settledDown (s : State) : Prop := s.calm ∧ s.home.walk = false

/-- Request `r` is the next of its bank, and no transient entry is open. -/
abbrev State.undisturbed (s : State) (l : LineId) (r : Req) : Prop :=
  s.settledDown ∧ s.home.ht = [] ∧ s.oldest l = some r ∧ s.lineFree r = true ∧ s.bankChoice (s.bankFor r) = some r ∧
    s.deadReq r.name = false ∧ (r.space = true → (s.windowOf l).isSome = true)

/-- One entry is open, at index `e`, and no request is queued; the entry has neither data nor writes to wait for, and nothing is kept for it. -/
abbrev State.alone (s : State) (e : BitVec 9) (h : Ht) : Prop :=
  s.settledDown ∧ s.home.ht = [(e.toNat, h)] ∧ s.home.q = [] ∧ h.ans = none ∧ h.cross = false ∧ h.sw = false ∧ h.tw = false ∧
    h.data = none ∧ h.have_ = none ∧ h.vic = none ∧ h.tags = [] ∧ h.comps = [] ∧ h.wbad = false ∧ h.fail = false ∧ h.reread = false ∧
    h.passed = false ∧ h.rclm = false

/-- The snoop of the one open entry has gone to the owner `o`, who has not answered. -/
abbrev State.awaitsOwner (s : State) (e : BitVec 9) (h : Ht) (o : Id12) : Prop :=
  s.alone e h ∧ h.own = some o ∧ s.isDead o = false ∧ h.expect = true ∧ s.ownerOf h.line = some o

/-- The same, the entry being that of request `r` of another agent `a`. -/
abbrev State.awaitsOne (s : State) (e : BitVec 9) (h : Ht) (r : Req) (a o : Id12) : Prop :=
  s.awaitsOwner e h o ∧ h.why = .req r ∧ r.line = h.line ∧ r.agent = some a ∧ o ≠ a

/-- Entries of the RSP and DAT queues are free for the answers to any one snoop (R221). -/
abbrev State.answerRoom (s : State) : Prop := s.rspUsed 512 ≤ 15 ∧ s.datUsed 512 ≤ 62

/-- A completion of request `r` is ready: its RTYPE, RCODE, POIS, GRANT and DCNT (R52). -/
def State.completes (t : State) (r : Req) (rtype code : Nat) (pois : Bool) (grant dcnt : Nat) : Prop :=
  ∃ m ∈ t.port.ready, ∃ scopew : Bool, m.port = portOf r.src ∧
    m.flits = [rspFlit r.name.sty r.name.src r.name rtype code pois grant dcnt scopew 0 0]

/-- The line data of request `r` is ready to leave with its poison and its crust (R42). -/
def State.sendsLine (t : State) (r : Req) (d : Line) (pois : Bool) (c : Word) : Prop :=
  ∃ m ∈ t.port.ready, m.port = portOf r.src ∧ m.flits = lineFlits r.name.sty r.name.src r.name 0 d pois true c

/-- The snoop filter records agent `a` as present, and as the owner where `own` says so (R224). -/
def State.records (t : State) (l : LineId) (a : Id12) (own : Bool) : Prop :=
  ∃ (k : Nat) (x : Sf), t.sfFind l = some (k, x) ∧ bit x.pdv (dieOf a) = true ∧ (own = true → x.ov = true ∧ x.own = a)

/-- A snoop flit is ready, of entry `e` for line `l`: its SOP and FWD, where it goes, and the name to which FWDID, FWDTXN and FWDSTY point (R50). -/
def State.snoops (t : State) (e : Nat) (l : LineId) (sop : BitVec 2) (fwd : Bool) (relay bcast : Bool) (dst : Id12) (onto : TxName) : Prop :=
  ∃ m ∈ t.port.ready, m.port = 0 ∧ m.flits = [snpFlit t.ring.tieSlice e sop relay bcast false dst l onto.src onto.txn onto.sty fwd]

/-- Slot `i` of the frame at key `k`, which was `f`, has been rewritten with line `d` and poison `pois`. -/
def State.holds (t : State) (k i : Nat) (f : Frame) (l : LineId) (d : Line) (pois : Bool) : Prop :=
  ∃ m : Meta, t.frame k = some (f.write i (lidxOf l) d m) ∧ m.d = !l.space ∧ m.psn = pois ∧ m.kn = false ∧ m.crust = crust l d

/-- The command with code `op` is listed for the present state (R151). -/
def State.legal (s : State) (op : Nat) : Bool :=
  let quiet := s.ctl.st = .quiesced && !s.ctl.busy
  (op = 1 && (s.ctl.st = .shapeless || quiet || s.ctl.st = .drained)) ||
    (op = 2 && s.ctl.st = .loading && s.ctl.phase = .receiving) || (op = 3 && s.ctl.st = .running) ||
    (op = 4 && (quiet || s.ctl.st = .drained)) || (op = 5 && quiet) || (op = 6 && (s.ctl.st = .running || quiet)) ||
    (op = 7 && s.ctl.st = .drained)

/-- The registers that only software sets: interrupt enables and the other RW registers (R463). -/
def State.settings (s : State) : List (BitVec 64) :=
  [s.ring.xirqen.setWidth 64, s.land.irqen.setWidth 64, s.ctl.irqen.setWidth 64, s.arr.irqen.setWidth 64, s.home.irqen.setWidth 64,
    s.home.toirqen.setWidth 64, s.pin.irqen.setWidth 64, s.knd.irqen.setWidth 64, s.knd.resirqen.setWidth 64, s.knd.scirqen.setWidth 64,
    s.knd.scchken.setWidth 64, s.qos.gmen.setWidth 64, s.qos.erren.setWidth 64, s.chk.irqen.setWidth 64, s.lnk.irqen.setWidth 64,
    s.pwr.irqen.setWidth 64] ++
  [BitVec.ofNat 64 (num s.land.strict), s.land.ltLo.setWidth 64, s.land.ltHi.setWidth 64, s.land.landcfg.setWidth 64,
    s.home.deadto.setWidth 64, s.home.retry.setWidth 64, s.pin.csel.setWidth 64, s.qos.rsel.setWidth 64,
    BitVec.ofNat 64 (num s.pwr.fixed), s.pmc.msel.setWidth 64] ++ s.pmc.uperm.map fun w => w.setWidth 64

/-- The W1C status registers (R14, R463), but for PMC_OVF, which a command clears too (R456). -/
def State.flags (s : State) : List Word :=
  [s.ring.rstcause.setWidth 32, s.ring.xerr.setWidth 32, s.land.err.setWidth 32, s.ctl.irq.setWidth 32, s.arr.err.setWidth 32,
    s.home.err.setWidth 32, s.home.toerr.setWidth 32, s.pin.err.setWidth 32, s.knd.err.setWidth 32, s.knd.res.setWidth 32,
    s.knd.scerr.setWidth 32, s.knd.scchk.setWidth 32, s.qos.gmiss.setWidth 32, s.qos.err.setWidth 32, s.chk.err.setWidth 32,
    s.chk.susp.setWidth 32, s.lnk.err.setWidth 32, s.pwr.err.setWidth 32]

/-- The answer of a COMP without data or value: the response message of R52 on the port of arrival, which for the ring has two out-links (R394). -/
def State.compMsg (s : State) (r : Req) (code : BitVec 4) (pois : Bool) (grant : BitVec 3) (sample : Bool) : Msg :=
  let f := rspFlit r.name.sty r.name.src r.name 0 code.toNat pois grant.toNat 0 false 0 0
  { port := portOf r.src, cls := r.cls, vc := 2, link := if r.src = .ring then some (s.linkFor f) else none, line := none, own := true
    sad := false, pay := [], sample, flits := [f] }

/-! ### Reset words (R463) -/

/-- A run of consecutive registers with one reset word: first offset, number, word. -/
abbrev ResetRun := Nat × Nat × Nat

/-- The registers of domain Core and their reset words (R463). -/
def coreResetRuns : List ResetRun :=
  [(0x0100, 3, 0x0), (0x010C, 1, 0x984), (0x0110, 2, 0x0), (0x0118, 1, 0x1F), (0x011C, 2, 0x0), (0x0400, 1, 0x1),
    (0x0404, 8, 0x0), (0x0428, 3, 0x0), (0x0434, 1, 0xF), (0x0800, 4, 0x0), (0x0810, 1, 0x1F), (0x0814, 1, 0x0),
    (0x0820, 16, 0x0), (0x1000, 3, 0x0), (0x100C, 1, 0xF), (0x1010, 1, 0x0), (0x1040, 1, 0x814), (0x1044, 2, 0x0),
    (0x1050, 17, 0x0), (0x1094, 1, 0x7F), (0x1098, 2, 0x0), (0x1800, 3, 0x0), (0x1840, 33, 0x0), (0x18C4, 1, 0x3FF),
    (0x18C8, 1, 0x0), (0x18D0, 5, 0x0), (0x1900, 6, 0x0)] ++
  [(0x2000, 4, 0x0), (0x2010, 1, 0x3F), (0x2014, 1, 0x0), (0x2018, 1, 0x7), (0x201C, 4, 0x0), (0x2040, 2, 0x0),
    (0x2048, 1, 0x7), (0x204C, 1, 0x0), (0x2050, 1, 0x7), (0x2054, 3, 0x0), (0x2800, 3, 0x0), (0x2840, 54, 0x0),
    (0x2920, 3, 0x0), (0x292C, 1, 0xFFFF), (0x2930, 1, 0x0), (0x2934, 1, 0x3), (0x2938, 1, 0x0), (0x3000, 4, 0x0),
    (0x3010, 1, 0xFFF), (0x3014, 9, 0x0), (0x3040, 7, 0x0), (0x4000, 2, 0x0), (0x4008, 1, 0x2200), (0x400C, 1, 0x0),
    (0x4010, 1, 0xF), (0x4020, 6, 0x0), (0x4100, 32, 0x0), (0x5000, 649, 0x0), (0x5A30, 5, 0x0), (0x5A50, 2, 0x0),
    (0x5B00, 320, 0x0), (0x8000, 2048, 0x0), (0xC000, 16, 0x0)]

/-- The registers of domain Ring and their reset words, but for the tie-offs (R463). -/
def ringResetRuns : List ResetRun :=
  [(0x0000, 1, 0x40001), (0x0020, 2, 0x0), (0x0028, 1, 0x1), (0x002C, 2, 0x0), (0x0034, 1, 0x3F), (0x0424, 1, 0x0),
    (0x3800, 2, 0x0), (0x3808, 1, 0xBE), (0x380C, 4, 0x0), (0x381C, 1, 0x1F), (0x3820, 1, 0x1000), (0x3824, 1, 0x0),
    (0x3828, 1, 0x4)]

/-- Every register of the runs reads as its reset word. -/
def State.readsAs (s : State) (l : List ResetRun) : Prop :=
  ∀ r ∈ l, ∀ i < r.2.1, s.regRead (r.1 + 4 * i) = some (BitVec.ofNat 32 r.2.2)

/-- The W1C registers, by byte offset (R463). -/
def w1cOffsets : List Nat :=
  [0x0028, 0x0030, 0x0114, 0x0430, 0x080C, 0x1008, 0x1090, 0x18C0, 0x200C, 0x2014, 0x2044, 0x204C, 0x2928, 0x2930, 0x300C,
    0x3014, 0x3818, 0x400C, 0x5A10, 0x5A14, 0x5A18, 0x5A1C, 0x5A20]

/-- `n` registers in a row, by byte offset. -/
def regRun (a n : Nat) : List Nat := (List.range n).map fun i => a + 4 * i

/-- Registers whose fields are all RO, by byte offset, outside the user window (R463). -/
def roOffsets : List Nat :=
  [0x0000, 0x0004, 0x0008, 0x000C, 0x0020, 0x0024, 0x002C, 0x0110, 0x011C, 0x0120, 0x0400, 0x040C, 0x0410, 0x0414, 0x0418, 0x041C,
    0x0420, 0x0424, 0x0428, 0x042C, 0x0800, 0x0804, 0x0808, 0x0814, 0x1000, 0x1004, 0x1010, 0x1048, 0x1098,
    0x109C] ++
  [0x1800, 0x1804, 0x1808, 0x18C8, 0x18D0, 0x18D4, 0x18D8, 0x18DC, 0x18E0, 0x1904, 0x1908, 0x190C, 0x1910, 0x1914,
    0x2000, 0x2004, 0x2008, 0x201C, 0x2020, 0x2024, 0x2028, 0x2040, 0x2054, 0x2058, 0x205C, 0x2800, 0x2804, 0x2808, 0x2924,
    0x2938, 0x3000, 0x3004, 0x3008, 0x3018, 0x301C, 0x3020, 0x3024, 0x3028, 0x302C, 0x3030] ++
  [0x3034, 0x3050, 0x3054, 0x3058, 0x3804, 0x3808, 0x380C, 0x3810, 0x3814, 0x3820, 0x3824, 0x3828, 0x4004, 0x4008,
    0x5A04, 0x5A08, 0x5A0C, 0x5A54] ++
  regRun 0x0820 8 ++ regRun 0x0840 8 ++ regRun 0x1050 16 ++ regRun 0x1840 16 ++ regRun 0x1880 16 ++ regRun 0x2840 16 ++
  regRun 0x2880 16 ++ regRun 0x28C0 16 ++ regRun 0x2900 6 ++ regRun 0x3040 4 ++ regRun 0x4020 6 ++ regRun 0x4100 32 ++
  regRun 0x5000 320 ++ regRun 0x5500 320 ++ regRun 0xC000 16

/-- The other RW registers that take every write, by byte offset, with the bits they hold (R463). -/
def rwMasks : List (Nat × Word) :=
  [(0x0100, 1), (0x1900, 0x3F), (0x2920, 0xF7), (0x4000, 1), (0x5A30, 0xFFFFFFFF), (0x5A34, 0xFFFFFFFF), (0x5A38, 0xFFFFFFFF),
    (0x5A3C, 0xFFFFFFFF), (0x5A40, 0xFFFFFFFF), (0x5A50, 0xFF)]

/-- Interrupt enables, by byte offset, with their width (R463). -/
def enableOffsets : List (Nat × Nat) :=
  [(0x0034, 6), (0x0118, 5), (0x0434, 4), (0x0810, 5), (0x100C, 4), (0x1094, 7), (0x18C4, 10), (0x2010, 6), (0x2018, 3),
    (0x2048, 3), (0x2050, 3), (0x292C, 16), (0x2934, 2), (0x3010, 12), (0x381C, 5), (0x4010, 4)]

end Sys2Proof.Machine

namespace Sys2Proof

/-! ### Groups of commands -/

/-- The commands that reset the ring station or the core. -/
def Instr.resets : Instr → Bool
  | .ringResetAssert _ | .coreResetAssert => true
  | _ => false

/-- A write of a register by its offset: what the access does is that of the register. -/
def Instr.writesRegister : Instr → Bool
  | .registerWrite _ _ _ _ => true
  | _ => false


/-- The commands that change which slice this is, what it may do, or how its ports stand: firmware commands and the events of
the control plane, register accesses, resets and clocks, test access, the power interface, and the saddle link's own events. -/
def Instr.administers : Instr → Bool
  | .load _ | .imageWord _ _ | .imageCheckDone | .imageApplyDone | .initializingDone _ | .abort _ | .quiesce _
  | .quiescedReached | .resume _ | .epoch _ | .epochDone | .drain _ | .drainedReached | .unshape _ | .declare _ _ _
  | .release _ _ | .retrain _ _ | .holdDown _ _ | .freeze _ _ | .snap _ _ _ | .clr _ _ | .registerWrite _ _ _ _
  | .patternStoreWrite _ _ _ | .powcycLoRead _ | .pwrELoRead _ _ | .pmcCntLoRead _ _ | .pmcULoRead _ _ | .screeRetire _
  | .ijtagAccess | .bypass _ | .tapReset | .ringResetAssert _ | .ringResetDeassert _ _ _ _ | .coreResetAssert
  | .coreResetExit | .mpResetAssert | .mpResetDeassert | .phyResetAssert | .phyResetDeassert | .mckStop | .pckStop
  | .droopAssert | .droopLift | .throttleTaken _ | .freqReqHigh _ | .freqDeferEnd | .freqPrepDone | .freqReqLow
  | .energyReport | .counterWrap _ | .detectEnd _ | .ts1Recognised | .noPartnerTimeout | .lanechkEnd _ | .capexDone _ _ _ _
  | .phyRateReady | .phyTimeout | .prbsEnd _ _ | .alignDone | .trainPhaseTimeout _ | .saddleFrameReceive _ _ _ _
  | .saddleFrameSend _ | .saddleSignalLoss _ | .saddleSymbolThreshold _ | .retrainTimeout | .mckAlive | .pckAlive
  | .ijtagInstrumentAccess _ _ => true
  | _ => false

end Sys2Proof
end

