-- ==== Sys2Proof/Certificates/Slice0/Obligations.lean ====
section
/-! DEFINITION. The statements for the provers. Each docstring names the rules of spec/ the statement rests on, and the log entry of any
choice of the model's in it. -/

open Sys2Proof Sys2Proof.Machine

/-! ### The step and the forms it keeps -/

/-- A step carries out the command at the front of the queue, with the rest of the queue waiting. -/
def Obligations.StepRunsFront : Prop :=
  ∀ (c : Instr) (rest : List Instr) (s : State), step { s with pending := c :: rest } = exec c { s with pending := rest }

/-- With no command waiting a step is one CCK cycle: POWCYC counts it (R116) and the next cycle begins without occurrences; with
the core out of reset STATIC energy is charged to ICLASS (R446), and an energy report that falls due begins (R448). In OFF nothing is clocked.
That an empty queue means a cycle, and what ends with it (an access of the register port, the stay of a frame in the saddle transmit FIFO), are
the model's choices (logs 2 and 89). -/
def Obligations.IdleStepIsOneCycle : Prop :=
  ∀ s : State, s.pending = [] → ∃ t, step s = .next t ∧ (s.ctl.st = .off → t = s) ∧
    (s.ctl.st ≠ .off → t.ring = { s.ring with powcyc := s.ring.powcyc + 1 } ∧ t.pmc.now = [] ∧
      (s.reportDue = false → t.pwr = (if s.coreUp then (s.charge 0 s.cfg.qos.iclass 1).pwr else s.pwr)) ∧
      (s.reportDue = true → t.pwr = { (s.charge 0 s.cfg.qos.iclass 1).pwr with
        report := (List.range 16).map fun c => (nth s.pwr.acc c 0).extractLsb' 8 48, rstart := s.ring.powcyc }) ∧
      t.ctl = s.ctl ∧ t.arr = s.arr ∧ t.mp = s.mp ∧ t.home = s.home ∧ t.port = { s.port with eastMade := false } ∧ t.knd = s.knd ∧
      t.pin = s.pin ∧ t.land = s.land ∧ t.qos = s.qos ∧ t.chk = s.chk ∧
      t.lnk = { s.lnk with txFifo := if s.ring.pckRun then s.lnk.txFifo.drop 1 else s.lnk.txFifo } ∧ t.rg = { s.rg with rdy := false } ∧
      t.tap = s.tap ∧ t.pending = [])

/-- Every command is answered with a next state, and none touches the queue of waiting commands: the model has no fault and no
refusal (log 3 says what a command does whose conditions do not hold). -/
def Obligations.EveryCommandAnswersNext : Prop :=
  ∀ (c : Instr) (s : State), ∃ t, exec c s = .next t ∧ t.pending = s.pending

/-- The state after power-up keeps every form of Safety: the sparse tables are canonical, OFF agrees with SL_RS_RST_N, the frequency
handshake rests, and the scree buffer is empty. -/
def Obligations.SoundAtReset : Prop :=
  State.reset.canonical = true ∧ State.reset.controlled ∧ State.reset.handshake ∧ State.reset.screeFits

/-- Every step keeps the sparse tables in canonical form: frames, corrected-error counts, miss registers, snoop filter, transient
entries, line buffer, frame table, cairn table, landing table and pattern store. -/
def Obligations.CanonicalKept : Prop :=
  ∀ s t : State, s.canonical = true → step s = .next t → t.canonical = true

/-- Every step keeps the control plane in a state of R140: OFF exactly while SL_RS_RST_N is asserted, an origin and a phase of a
load exactly in LOADING. -/
def Obligations.ControlKept : Prop := ∀ s t : State, s.controlled → step s = .next t → t.controlled

/-- Every step keeps the frequency handshake, in which SL_PW_FREQ_ACK is high exactly in FSTATE ACKED and FSTATE is IDLE unless
SL_PW_FREQ_REQ is recognised high, and keeps the scree buffer within its 32 records. -/
def Obligations.HandshakeAndScreeKept : Prop :=
  ∀ s t : State, step s = .next t → (s.handshake → t.handshake) ∧ (s.screeFits → t.screeFits)

/-! ### Frames over all commands -/

/-- The identity of the slice and SL_TST_MODE change at no command but the assertion and the deassertion of SL_RS_RST_N; POWCYC
changes at no command but that assertion, which clears it, and COUNTER_WRAP, which ends a CCK cycle. That a command takes no CCK cycle
unless it is COUNTER_WRAP is the model's choice (log 2). -/
def Obligations.StationFrame : Prop :=
  ∀ (c : Instr) (s t : State), exec c s = .next t →
    (match c with
      | .ringResetAssert _ | .ringResetDeassert _ _ _ _ => True
      | _ => t.ring.tieSlice = s.ring.tieSlice ∧ t.ring.tieDie = s.ring.tieDie ∧ t.ring.tieEdge = s.ring.tieEdge ∧
          t.ring.tieItag = s.ring.tieItag ∧ t.ring.tstMode = s.ring.tstMode) ∧
    (match c with
      | .ringResetAssert _ => t.ring.powcyc = 0
      | .counterWrap _ => t.ring.powcyc = s.ring.powcyc ∨ t.ring.powcyc = s.ring.powcyc + 1
      | _ => t.ring.powcyc = s.ring.powcyc)

/-- The commands that carry flits, lines and walks leave alone what the administrative commands govern: the ring station's
registers and pins but the overrun bits of the pulse crossings, the shape image, the state of the slice and its registers but ST_DRNCNT.BUFLINES, the power interface but its
energy accumulators, the link layer but its transmit queue and the credits it owes, the register port and the test access port. -/
def Obligations.WorkFrame : Prop :=
  ∀ (c : Instr) (s t : State), c.administers = false → exec c s = .next t →
    { t.ring with pulses := s.ring.pulses, xerr := s.ring.xerr } = s.ring ∧ s.ring.xerr &&& t.ring.xerr = s.ring.xerr ∧
      t.cfg = s.cfg ∧ { t.ctl with drnBuf := s.ctl.drnBuf } = s.ctl ∧ { t.pwr with acc := s.pwr.acc } = s.pwr ∧
      { t.lnk with tx := s.lnk.tx, sel := s.lnk.sel, owed := s.lnk.owed } = s.lnk ∧ t.rg = s.rg ∧ t.tap = s.tap

/-! ### Registers -/

/-- After SL_RST_N has been asserted and the core has left reset again, every register of domain Core reads as its reset word,
whatever the slice held before; no frequency request is pending. SL_RS_RST_N asserted leaves every register of domain Ring, but the
tie-offs, at its reset word, and the slice in OFF. -/
def Obligations.ResetWords : Prop :=
  ∀ s : State,
    (s.ctl.st ≠ .off → s.pwr.req = false →
      Leaves .coreResetAssert s fun f => f.ctl.st = .fenced ∧ Leaves .coreResetExit f fun t => t.readsAs coreResetRuns) ∧
    (∀ tst : Bool, Leaves (.ringResetAssert tst) s fun t =>
      t.ctl.st = .off ∧ t.readsAs ringResetRuns ∧ t.pending = s.pending ∧ t.tap = s.tap)

/-- A write to a W1C register clears the bits written 1 and leaves the others (R14), in every state that lets the access through;
the access completes with SL_RG_ERR at 0. A W1C bit that hardware sets in the cycle of the write that clears it stays set, each such bit
is counted in CHK_W1CCOL.CNT, and nothing else of the slice changes; here for CHK_ERR. Saturation of the count is that of R433. -/
def Obligations.WriteOneClears : Prop :=
  (∀ (o : Nat) (d : Word) (s : State), o ∈ w1cOffsets → s.ctl.st ≠ .off → s.performs true o = true →
    Leaves (.registerWrite ⟨true, goodPar o d⟩ (wordAddr o) d 0) s fun t =>
      t.regRead o = (s.regRead o).map (fun v => v &&& ~~~d) ∧ t.rg = { s.rg with err := false, rdy := true }) ∧
  (∀ (d hw : Word) (s : State), s.coreUp = true →
    Carries (.registerWrite ⟨true, goodPar 0x300C d⟩ (wordAddr 0x300C) d hw) s
      { s with chk.err := (s.chk.err &&& ~~~d.setWidth 12) ||| (hw.setWidth 12 &&& d.setWidth 12)
               chk.w1ccol := satAdd s.chk.w1ccol (ones (hw.setWidth 12 &&& d.setWidth 12)), rg.err := false, rg.rdy := true })

/-- A write to an interrupt enable or to another RW register sets it, and it then reads as written in its fields; a write to a register
whose fields are all RO changes nothing. Either access completes with SL_RG_ERR at 0. CFG_LTBASE and CFG_LANDCFG are set while no final write
is held and no count unsent, else the write is ignored with LAND_ERR.CFGREJ (R293); a field of CFG_LANDCFG or COH_CFG out of its range keeps
the register, or the field, as it is (R260, R293). -/
def Obligations.WritesByAccess : Prop :=
  ∀ (o : Nat) (d : Word) (s : State), s.ctl.st ≠ .off → s.performs true o = true →
    (∀ w, (o, w) ∈ enableOffsets → Leaves (.registerWrite ⟨true, goodPar o d⟩ (wordAddr o) d 0) s fun t =>
      t.regRead o = some (d &&& BitVec.ofNat 32 (2 ^ w - 1)) ∧ t.rg = { s.rg with err := false, rdy := true }) ∧
    (o ∈ roOffsets → ∀ hw, Carries (.registerWrite ⟨true, goodPar o d⟩ (wordAddr o) d hw) s s.wrote) ∧
    (∀ m, (o, m) ∈ rwMasks → s.pmc.uperm.length = 5 → Leaves (.registerWrite ⟨true, goodPar o d⟩ (wordAddr o) d 0) s fun t =>
      t.regRead o = some (d &&& m) ∧ t.rg = { s.rg with err := false, rdy := true }) ∧
    ((s.landHeld ≠ 0 ∨ s.landUnsent = true) → o ∈ [0x0104, 0x0108, 0x010C] →
      Carries (.registerWrite ⟨true, goodPar o d⟩ (wordAddr o) d 0) s
        { s with land.err := setBit s.land.err 4, rg.err := false, rg.rdy := true }) ∧
    (s.landHeld = 0 → s.landUnsent = false →
      (o = 0x0104 → Carries (.registerWrite ⟨true, goodPar o d⟩ (wordAddr o) d 0) s
        { s with land.ltLo := d &&& 0xFFFFE003, rg.err := false, rg.rdy := true }) ∧
      (o = 0x0108 → Carries (.registerWrite ⟨true, goodPar o d⟩ (wordAddr o) d 0) s
        { s with land.ltHi := d &&& 0x000FFFFF, rg.err := false, rg.rdy := true }) ∧
      (o = 0x010C → (let inRange := (d.extractLsb' 0 4).toNat ≤ 8 ∧ 6 ≤ (d.extractLsb' 4 4).toNat ∧ 6 ≤ (d.extractLsb' 8 4).toNat
        Carries (.registerWrite ⟨true, goodPar o d⟩ (wordAddr o) d 0) s
          { s with land.landcfg := if inRange then d &&& 0xFFFF else s.land.landcfg, rg.err := false, rg.rdy := true }))) ∧
    (o = 0x1040 → (let dl := d.extractLsb' 0 5
      let re := d.extractLsb' 8 5
      Carries (.registerWrite ⟨true, goodPar o d⟩ (wordAddr o) d 0) s
        { s with home.deadto := if 14 ≤ dl.toNat ∧ dl.toNat ≤ 24 then dl else s.home.deadto
                 home.retry := if 6 ≤ re.toNat ∧ re.toNat ≤ 12 then re else s.home.retry, rg.err := false, rg.rdy := true }))

/-- A write access is turned away with SL_RG_ERR at 1 and changes nothing: under a parity error, in FENCED to a register of the core, to the
user window, and to a reserved offset. A read of a reserved offset returns 0 with SL_RG_ERR at 1 (R464); a read of a register of WO fields
returns 0 in them with SL_RG_ERR at 0 (R466), and no read of a register without a side effect changes anything. -/
def Obligations.RefusedWrites : Prop :=
  (∀ (p : Par) (a : BitVec 14) (d hw : Word) (s : State), s.ctl.st ≠ .off →
    (p.apar ≠ (true ^^ parity a) ∨ p.wpar ≠ parity d ∨ (s.ctl.st = .fenced ∧ ringReg (4 * a.toNat) = false) ∨
      (0x5B00 ≤ 4 * a.toNat ∧ 4 * a.toNat ≤ 0x5FFC) ∨ s.regRead (4 * a.toNat) = none) →
    Carries (.registerWrite ⟨true, p⟩ a d hw) s { s with rg.err := true, rg.rdy := true }) ∧
  (∀ (o : Nat) (p : Par) (d hw : Word) (s : State), s.coreUp = true → p.apar = goodRead o → o % 4 = 0 → o < 0x10000 →
    (s.regRead o = none → Carries (.registerWrite ⟨false, p⟩ (wordAddr o) d hw) s
      { s with rg := ⟨0, false, true, true⟩ }) ∧
    (o ∈ [0x0404, 0x0408, 0x1044] → Carries (.registerWrite ⟨false, p⟩ (wordAddr o) d hw) s { s with rg := ⟨0, false, false, true⟩ }) ∧
    (∀ v, s.regRead o = some v → o < 0x4100 → o ≠ 0x0020 → Carries (.registerWrite ⟨false, p⟩ (wordAddr o) d hw) s
      { s with rg := ⟨v, parity v, false, true⟩ }))

/-- A read of CFG_POWCYC_LO returns POWCYC bits [31:0] and copies bits [63:32] into CFG_POWCYC_HI, which a read of that register
returns. -/
def Obligations.PowcycPairRead : Prop :=
  ∀ s : State, s.ctl.st ≠ .off →
    Carries (.powcycLoRead (goodRead 0x0020)) s
      { s with ring.powHi := s.ring.powcyc.extractLsb' 32 32
               rg := ⟨s.ring.powcyc.extractLsb' 0 32, parity (s.ring.powcyc.extractLsb' 0 32), false, true⟩ } ∧
    ∀ t : State, t.regRead 0x0024 = some t.ring.powHi

/-- A read of PWR_E_LO_c returns bits [31:0] of the reported value of class c and copies bits [47:32] of the same value into
PWR_E_HI_c; ENERGY_REPORT captures the 16 reported values at once, each bits [55:8] of its accumulator, and a report that has begun in the
present cycle does not begin again. -/
def Obligations.EnergyReported : Prop :=
  (∀ (c : BitVec 4) (s : State), s.coreUp = true → s.pwr.ehi.length = 16 →
    (let v := s.energy c.toNat
     Leaves (.pwrELoRead (goodRead (0x4100 + 8 * c.toNat)) c) s fun t =>
      t = { s with pwr.ehi := s.pwr.ehi.set c.toNat (v.extractLsb' 32 16)
                   rg := ⟨v.extractLsb' 0 32, parity (v.extractLsb' 0 32 : Word), false, true⟩ } ∧
      t.regRead (0x4104 + 8 * c.toNat) = some ((v.extractLsb' 32 16 : BitVec 16).setWidth 32))) ∧
  (∀ s : State, s.coreUp = true → s.cfg.ener.erptEn = true → s.ring.powcyc.toNat % 2 ^ s.cfg.ener.erper.toNat = 0 →
    ((s.pwr.report = [] ∨ s.pwr.rstart ≠ s.ring.powcyc) → Carries .energyReport s
      { (s.ev 159) with pwr.report := (List.range 16).map fun c => (nth s.pwr.acc c 0).extractLsb' 8 48, pwr.rstart := s.ring.powcyc }) ∧
    (s.pwr.report ≠ [] → s.pwr.rstart = s.ring.powcyc → Carries .energyReport s s))

/-- A read of PMC_CNT_LO_i returns counter bits [31:0] and copies bits [39:32] into the latch that every PMC_CNT_HI register
returns; the user window has a latch of its own, read with the permission of PMC_UPERM. -/
def Obligations.CounterPairReads : Prop :=
  ∀ (i : Nat) (s : State), i < 160 → s.coreUp = true →
    (let v := nth s.pmc.cnt i 0
     let shown : Rg := ⟨v.extractLsb' 0 32, parity (v.extractLsb' 0 32 : Word), false, true⟩
     (Leaves (.pmcCntLoRead (goodRead (0x5000 + 8 * i)) i) s fun t =>
        t = { s with pmc.latch := v.extractLsb' 32 8, rg := shown } ∧
          ∀ j < 160, t.regRead (0x5004 + 8 * j) = some ((v.extractLsb' 32 8 : Byte).setWidth 32)) ∧
     (bit (nth s.pmc.uperm (i / 32) 0) (i % 32) = true → Leaves (.pmcULoRead (goodRead (0x5B00 + 8 * i)) i) s fun t =>
        t = { s with pmc.ulatch := v.extractLsb' 32 8, rg := shown } ∧
          ∀ j < 160, t.regRead (0x5B04 + 8 * j) = some ((v.extractLsb' 32 8 : Byte).setWidth 32)) ∧
     (bit (nth s.pmc.uperm (i / 32) 0) (i % 32) = false →
        Carries (.pmcULoRead (goodRead (0x5B00 + 8 * i)) i) s { s with rg := ⟨0, false, true, true⟩ }))

/-- A read of 0xC03C returns word 15 of the oldest unread scree record and retires that record; with none it returns 0. -/
def Obligations.ScreeRetired : Prop :=
  ∀ s : State, s.coreUp = true →
    (let w : Word := ((s.chk.scree.head?).getD 0).extractLsb' 480 32
     Carries (.screeRetire (goodRead 0xC03C)) s { s with chk.scree := s.chk.scree.tail, rg := ⟨w, parity w, false, true⟩ })

/-- The registers that only software sets change at no command but a register write and a reset. -/
def Obligations.SettingsFrame : Prop :=
  ∀ (c : Instr) (s t : State), c.writesRegister = false → c.resets = false → exec c s = .next t → t.settings = s.settings

/-- No command clears a bit of a W1C status register but a register write and a reset. -/
def Obligations.FlagsStay : Prop :=
  ∀ (c : Instr) (s t : State), c.writesRegister = false → c.resets = false → exec c s = .next t →
    ∀ i < s.flags.length, s.flags.getD i 0 &&& t.flags.getD i 0 = s.flags.getD i 0

/-! ### The control plane -/

/-- A command written to ST_CMD in a state not listed for it or with a reserved OP, and a write of ST_IMG_DATA outside the receiving
phase of LOADING, change nothing but ST_REJ and ST_IRQ.STATE_ERR; the access completes with SL_RG_ERR at 0. -/
def Obligations.StateErrors : Prop :=
  ∀ (d : Word) (s : State), s.coreUp = true →
    (s.legal (d.extractLsb' 0 4).toNat = false →
      Carries (.registerWrite ⟨true, goodPar 0x0404 d⟩ (wordAddr 0x0404) d 0) s
        { s with ctl.rejOp := d.extractLsb' 0 4, ctl.rejState := BitVec.ofNat 4 (stCode s.ctl.st), ctl.rejSrc := false
                 ctl.rejCnt := satAdd s.ctl.rejCnt 1, ctl.irq := setBit s.ctl.irq 1, rg.err := false, rg.rdy := true }) ∧
    ((s.ctl.st ≠ .loading ∨ s.ctl.phase ≠ .receiving) →
      Carries (.imageWord (goodPar 0x0408 d) d) s
        { s with ctl.rejOp := 0, ctl.rejState := BitVec.ofNat 4 (stCode s.ctl.st), ctl.rejSrc := true
                 ctl.rejCnt := satAdd s.ctl.rejCnt 1, ctl.irq := setBit s.ctl.irq 1, rg.err := false, rg.rdy := true })

/-- LOAD, ABORT, QUIESCE, EPOCH and DRAIN in the states listed for them (R151): the state they lead to, and for ABORT CMD_DONE. EPOCH
switches the active map, keeps the map before it, and starts both walks; EPOCH_DONE ends the switch with CMD_DONE (R312, R319, R321). That
EPOCH keeps a map in place of one kept before, and that LOAD clears ST_LOADERR.SECT and ST_LOADOFF with the code, are the model's choices (log
40). -/
def Obligations.CommandsLead : Prop :=
  (∀ s : State, s.coreUp = true → s.ring.tstMode = false →
    (s.legal 1 = true → Carries (.load (goodPar 0x0404 1)) s
      { s with ctl.st := .loading, ctl.lorig := s.ctl.st, ctl.phase := .receiving, ctl.img := [], ctl.imgCnt := 0, ctl.leCode := 0
               ctl.leSect := 0, ctl.leOff := 0, rg.err := false, rg.rdy := true }) ∧
    (s.legal 2 = true → Leaves (.abort (goodPar 0x0404 2)) s fun t =>
      t.ctl = { s.ctl with st := s.ctl.lorig, lorig := .off, phase := .none, img := [], irq := setBit s.ctl.irq 0 } ∧
      t.cfg = s.cfg ∧ t.arr = s.arr ∧ t.home = s.home ∧ t.knd = s.knd ∧ t.mp = s.mp ∧ t.rg = { s.rg with err := false, rdy := true }) ∧
    (s.legal 3 = true → Carries (.quiesce (goodPar 0x0404 3)) s { s with ctl.st := .quiescing, rg.err := false, rg.rdy := true }) ∧
    (s.legal 6 = true → Carries (.drain (goodPar 0x0404 6)) s
      { s with ctl.st := .draining, ctl.drnBuf := 0, ctl.drnFr := 0, rg.err := false, rg.rdy := true }) ∧
    (s.ctl.st = .quiesced → s.ctl.busy = false → Carries (.epoch (goodPar 0x0404 5)) s
      { s with cfg.prevMap := some s.activeMap, ctl.epoch := !s.ctl.epoch, ctl.busy := true, pin.epSf := 0
               pin.epTag := (List.range 16).map fun b => if bit s.ctl.insvc b then 0 else 12288
               pin.sent := 0, pin.rcvd := 0, pin.lostN := 0, pin.lostRf := 0, rg.err := false, rg.rdy := true })) ∧
  (∀ s : State, s.ctl.busy = true → s.pin.epSf = 8192 → (∀ p ∈ s.pin.epTag, p = 12288) →
    (∀ e ∈ s.home.ht, e.2.st ≠ .binv ∧ e.2.st ≠ .move) → (∀ w ∈ s.mp.hold, w.cause ≠ .walk) →
    Carries .epochDone s { s with ctl.busy := false, ctl.irq := setBit s.ctl.irq 0 })

/-- RESUME from QUIESCED reaches RUNNING with CMD_DONE, from DRAINED INITIALIZING without it; the previous map is dropped, and a
changed LINK section takes effect: the link layer takes its settings, and full training starts unless the port is disabled, held down or kept
down by its PHY side (R150, R151, R157, R312). UNSHAPE discards the image and leaves nothing in the arrays, and no class holds a step (R151,
R156, R384; its registers read as after reset, log 14). -/
def Obligations.ResumeAndUnshape : Prop :=
  ∀ s : State, s.coreUp = true → s.ring.tstMode = false →
    (let took (t : State) : Prop :=
       t.lnk.cfg = s.cfg.link ∧ (s.cfg.link.enable = false → t.lnk.st = .down) ∧
       (s.cfg.link.enable = true → s.lnk.hold = true → t.lnk.st = .down ∧ t.lnk.errc = 0x0C) ∧
       (s.cfg.link.enable = true → s.lnk.hold = false → s.ring.spRst = false → s.ring.pckRun = true →
         t.lnk.st = .detect ∧ t.lnk.errc = 0 ∧ t.lnk.laneEn = 0)
    (s.ctl.st = .quiesced → s.ctl.busy = false → Leaves (.resume (goodPar 0x0404 4)) s fun t =>
      t.ctl = { s.ctl with st := .running, linkChanged := false, irq := setBit s.ctl.irq 0 } ∧
      t.cfg = { s.cfg with prevMap := none } ∧ t.arr = s.arr ∧ t.home = s.home ∧ t.knd = s.knd ∧ t.mp = s.mp ∧
      (s.ctl.linkChanged = false → t.lnk = s.lnk) ∧ (s.ctl.linkChanged = true → took t)) ∧
    (s.ctl.st = .drained → Leaves (.resume (goodPar 0x0404 4)) s fun t =>
      t.ctl = { s.ctl with st := .initializing, linkChanged := false, initResume := true } ∧
      t.cfg = { s.cfg with prevMap := none } ∧ t.arr = s.arr ∧
      (s.ctl.linkChanged = false → t.lnk = s.lnk) ∧ (s.ctl.linkChanged = true → took t)) ∧
    (s.ctl.st = .drained → Carries (.unshape (goodPar 0x0404 7)) s
      { s with ctl.st := .shapeless, ctl.initResume := false, ctl.linkChanged := false, ctl.insvc := 0, ctl.gov := 0, cfg := .reset
               ctl.irq := setBit s.ctl.irq 0, rg.err := false, rg.rdy := true
               qos.avg := (List.range 16).map fun c => { s.qavg c with steps := 0 }
               arr.frames := [], arr.rewrite := [], arr.struck := [], arr.locks := [], home.sf := [], knd.lb := [] }))

/-- An image word is received (R167): counted and kept; the last one ends the receiving phase; a word that shows the image to be wrong
ends the load in its origin state with ST_LOADERR and LOAD_ERR, and without CMD_DONE (R153), and the rejection is counted (R169). -/
def Obligations.ImageWordsReceived : Prop :=
  ∀ (d : Word) (s : State), s.coreUp = true → s.ctl.st = .loading → s.ctl.phase = .receiving →
    (earlyErr s.ctl.imgCnt.toNat d = none →
      (let t := { s with ctl.img := d :: s.ctl.img, ctl.imgCnt := s.ctl.imgCnt + 1 }
       let whole := 2 ≤ s.ctl.imgCnt.toNat ∧ 4 * (s.ctl.imgCnt.toNat + 1) = t.imgLength
       (whole → Carries (.imageWord (goodPar 0x0408 d) d) s { t with ctl.phase := .checking, rg.err := false, rg.rdy := true }) ∧
       (¬whole → Carries (.imageWord (goodPar 0x0408 d) d) s { t with rg.err := false, rg.rdy := true }))) ∧
    (∀ e : LoadErr, earlyErr s.ctl.imgCnt.toNat d = some e → Leaves (.imageWord (goodPar 0x0408 d) d) s fun t =>
      t.ctl = { s.ctl with
        st := s.ctl.lorig, lorig := .off, phase := .none, img := [], imgCnt := s.ctl.imgCnt + 1, irq := setBit s.ctl.irq 2
        leCode := BitVec.ofNat 5 e.code, leSect := BitVec.ofNat 16 e.sect, leOff := BitVec.ofNat 14 e.off
        loadRej := s.ctl.loadRej + 1 } ∧
      t.cfg = s.cfg ∧ t.arr = s.arr ∧ t.home = s.home)

/-- The end of a load (R151, R169): a failed check leaves the origin state and the configuration as they were, and is counted; a good
image is applied, and leads to INITIALIZING from SHAPELESS, else back to the origin with CMD_DONE. Before the first bond test
ST_BANKS.INSVC reads 0, since no bank has passed it (R148). -/
def Obligations.LoadEnds : Prop :=
  ∀ s : State, s.ctl.st = .loading →
    (∀ e : LoadErr, s.ctl.phase = .checking → s.checkImage s.ctl.img.reverse = .error e →
      Leaves .imageCheckDone s fun t =>
        t.ctl.st = s.ctl.lorig ∧ t.ctl.irq = setBit s.ctl.irq 2 ∧ t.ctl.leCode = BitVec.ofNat 5 e.code ∧ t.cfg = s.cfg ∧
        t.ctl.loadRej = s.ctl.loadRej + 1 ∧ t.arr = s.arr ∧ t.home = s.home) ∧
    (∀ i : Image, s.checkImage s.ctl.img.reverse = .ok i →
      (s.ctl.phase = .checking → Carries .imageCheckDone s { s with ctl.phase := .applying }) ∧
      (s.ctl.phase = .applying → Leaves .imageApplyDone s fun t =>
        t.cfg = i.cfg ∧ t.ctl.imgser = i.serial ∧ t.ctl.epoch = i.epoch ∧
        t.ctl.insvc = (if s.ring.bondDone then i.cfg.arr.insvc &&& ~~~s.ring.bondFail else 0) ∧ t.ctl.lorig = .off ∧
        t.ctl.phase = .none ∧
        (s.ctl.lorig = .shapeless → t.ctl.st = .initializing ∧ t.ctl.irq = s.ctl.irq) ∧
        (s.ctl.lorig ≠ .shapeless → t.ctl.st = s.ctl.lorig ∧ t.ctl.irq = setBit s.ctl.irq 0)))

/-- INITIALIZING ends (R146 to R150): the arrays, the snoop filter, the miss registers, the line buffer, the frame table and the landing
table are empty, and each bank's LFSR holds the seed rotated by its number (R191). The bond test runs in the first INITIALIZING after
SL_RS_RST_N; a later one, after a RESUME or another load, keeps its results. RUNNING follows a RESUME, a load that leaves the saddle port
disabled, one whose LINK section is that of a link that is up, and one under HOLD_DOWN, which ends LINKING at once; another load leads to
LINKING, with the settings in force and training begun. Without a bank in service the image is discarded and LOAD_ERR set; that the
configuration registers then read as after reset is the model's choice (log 14). -/
def Obligations.InitializingEnds : Prop :=
  ∀ (fails : List (BitVec 4 × BitVec 10)) (s : State), s.ctl.st = .initializing →
    (let bad := if s.ring.bondDone then s.ring.bondFail else failMask fails
     (s.cfg.arr.insvc &&& ~~~bad ≠ 0 → Leaves (.initializingDone fails) s fun t =>
        t.arr.frames = [] ∧ t.home.sf = [] ∧ t.home.ht = [] ∧ t.mp.miss = [] ∧ t.knd.lb = [] ∧ t.knd.ft = [] ∧ t.land.tab = [] ∧
        t.ring.bondFail = bad ∧ t.ring.bondDone = true ∧ (s.ring.bondDone = true → t.ring = s.ring) ∧
        (s.ring.bondDone = false → fails ≠ [] → bit t.ctl.irq 3 = true) ∧
        t.ctl.insvc = s.cfg.arr.insvc &&& ~~~bad ∧ (∀ b < 16, nth t.arr.lfsr b 0 = s.cfg.arr.seed.rotateLeft b) ∧
        ((s.ctl.initResume = true ∨ s.cfg.link.enable = false) → t.ctl.st = .running ∧ bit t.ctl.irq 0 = true) ∧
        (s.ctl.initResume = false → s.cfg.link.enable = true →
          (s.linkUp = true → s.lnk.cfg = s.cfg.link → t.ctl.st = .running ∧ bit t.ctl.irq 0 = true ∧ t.lnk = s.lnk) ∧
          ((s.linkUp = false ∨ s.lnk.cfg ≠ s.cfg.link) →
            t.lnk.cfg = s.cfg.link ∧
            (s.lnk.hold = true → t.ctl.st = .running ∧ bit t.ctl.irq 0 = true ∧ t.lnk.st = .down ∧ t.lnk.errc = 0x0C) ∧
            (s.lnk.hold = false → s.ring.spRst = false → s.ring.pckRun = true →
              t.ctl.st = .linking ∧ bit t.ctl.irq 0 = bit s.ctl.irq 0 ∧ t.lnk.st = .detect ∧ t.lnk.errc = 0)))) ∧
     (s.cfg.arr.insvc &&& ~~~bad = 0 → Leaves (.initializingDone fails) s fun t =>
        t.ctl.st = .shapeless ∧ t.ctl.leCode = 14 ∧ t.ctl.leSect = 0x0010 ∧ t.ctl.leOff = 0 ∧ bit t.ctl.irq 2 = true ∧
        t.cfg = .reset))

/-- QUIESCED is entered from QUIESCING under the conditions of R154, and DRAINED from DRAINING under those of R155, with CMD_DONE;
what the slice holds is untouched by the one, and cairns are gone after the other. That DRAINED_REACHED may be given more than once, and that
DRAINED is entered at the one that leaves no dirty line of the memory space and no write under way, with the memory port up, is the model's
reading, as is what it counts as quiet (log 41). -/
def Obligations.QuiesceAndDrainEnd : Prop :=
  ∀ s : State,
    (s.ctl.st = .quiescing → s.quiet = true →
      Carries .quiescedReached s { s with ctl.st := .quiesced, ctl.irq := setBit s.ctl.irq 0 }) ∧
    (s.ctl.st = .draining → s.drainable = true → s.arr.frames = [] → s.knd.ft = [] → s.mp.hold = [] → s.ring.mpUp = true →
      Carries .drainedReached s { s with pin.cairns := [], pin.demote := 0, ctl.st := .drained, ctl.irq := setBit s.ctl.irq 0 }) ∧
    (s.ctl.st = .draining → s.drainable = true → Leaves .drainedReached s fun t =>
      t.pin.cairns = [] ∧ (t.ctl.st = .drained ↔ t.dirtyLines = [] ∧ t.mp.hold = [] ∧ s.ring.mpUp = true) ∧
      (t.ctl.st = .drained → bit t.ctl.irq 0 = true) ∧ (t.ctl.st ≠ .drained → t.ctl.st = .draining ∧ t.ctl.irq = s.ctl.irq))

/-! ### Other register commands -/

/-- A write of PMC_CTL: FREEZE takes its value; SNAP copies the 160 counters and POWCYC; CLR clears the counters and PMC_OVF after the
snapshot, and discards the occurrences of its cycle. A write of FREEZE 0 over FREEZE 1 lets counting resume in the next CCK cycle. -/
def Obligations.CounterControl : Prop :=
  ∀ (frz clr : Bool) (s : State), s.coreUp = true →
    (let again := s.pmc.skip || (s.pmc.freeze && !frz)
     Carries (.freeze (goodPar 0x5A00 (word [(0, num frz)])) frz) s
       { s with pmc.freeze := frz, pmc.skip := again, rg.err := false, rg.rdy := true } ∧
     Carries (.snap (goodPar 0x5A00 (word [(0, num frz), (1, 1), (2, num clr)])) frz clr) s
       { s with pmc.snap := s.pmc.cnt, pmc.snapT := s.ring.powcyc, pmc.freeze := frz
                pmc.cnt := if clr then List.replicate 160 0 else s.pmc.cnt
                pmc.ovf := if clr then List.replicate 160 false else s.pmc.ovf, pmc.skip := clr || again, rg.err := false, rg.rdy := true } ∧
     Carries (.clr (goodPar 0x5A00 (word [(0, num frz), (2, 1)])) frz) s
       { s with pmc.cnt := List.replicate 160 0, pmc.ovf := List.replicate 160 false, pmc.freeze := frz, pmc.skip := true
                rg.err := false, rg.rdy := true })

/-- COH_DEADCMD (R255, R259). A declaration that no open entry waits on enters the agent in the lowest free row of the table, with a
reclaim walk of 8,192 sets due once the entries now open have closed (R256); it is refused with TABFULL when no row is free, and with CMDREJ
in another state, for NP 0b11 or for an agent already in the table. A release is accepted for a row that shows DONE, and refused with
CMDREJ otherwise. A refusal changes nothing else. That a release is accepted in every state of the slice, and that CMDREJ is checked before
TABFULL, are the model's choices (log 30); that a release ignores NP is too (log 104). -/
def Obligations.DeadCommands : Prop :=
  ∀ (a : Id12) (np : BitVec 2) (s : State), s.coreUp = true →
    (let declare := Instr.declare (goodPar 0x1044 (word [(0, a.toNat), (12, np.toNat), (14, 1)])) a np
     let release := Instr.release (goodPar 0x1044 (word [(0, a.toNat), (14, 2)])) a
     let refused (i : Nat) : State := { s with home.toerr := setBit s.home.toerr i, rg.err := false, rg.rdy := true }
     ((s.declares = false ∨ np = 3 ∨ s.isDead a = true) → s.home.dead.length = 16 → Carries declare s (refused 5)) ∧
     (s.declares = true → np ≠ 3 → s.isDead a = false →
       (s.deadFree = none → Carries declare s (refused 4)) ∧
       (∀ k, s.deadFree = some k → (∀ e ∈ s.home.ht, s.waitsOn e.2 a = false) → Carries declare s
         { s with home.dead := upd s.home.dead k fun _ =>
                    { agent := a, np, done := false, valid := true, left := 8192, opens := s.home.ht.map fun e => e.1 }
                  rg.err := false, rg.rdy := true })) ∧
     (s.deadRow a = none → Carries release s (refused 5)) ∧
     (∀ (k : Nat) (d : Dead), s.deadRow a = some k → s.home.dead[k]? = some d →
       (d.done = true → Carries release s { s with home.dead := upd s.home.dead k fun _ => .reset, rg.err := false, rg.rdy := true }) ∧
       (d.done = false → Carries release s (refused 5))))

/-- LNK_CTL (R109, R149). RETRAIN starts full training on a port that may train and is neither training nor waiting for its PHY side;
HOLD_DOWN at 1 takes a link that is up down with LNK_HELD and LNK_ERR.DOWN (the bit is the model's reading, log 15), and ends training
with no LNK_ERR bit. -/
def Obligations.LinkCommands : Prop :=
  ∀ s : State, s.ctl.st ≠ .off → s.lnk.st ≠ .retrain →
    (s.mayTrain = true → s.training = false → s.lnk.errc ≠ 0x0A → s.lnk.errc ≠ 0x0B →
      Leaves (.retrain (goodPar 0x3800 1) false) s fun t =>
        t.lnk.st = .detect ∧ t.lnk.errc = 0 ∧ t.lnk.laneEn = 0 ∧ t.lnk.err = s.lnk.err ∧ t.ctl = s.ctl) ∧
    (s.lnk.st = .up → s.lnk.served = true → Leaves (.holdDown (goodPar 0x3800 2) true) s fun t =>
      t.lnk.hold = true ∧ t.lnk.st = .down ∧ t.lnk.errc = 0x0C ∧ t.lnk.err = setBit s.lnk.err 3 ∧ t.lnk.replay = []) ∧
    (s.training = true → Leaves (.holdDown (goodPar 0x3800 2) true) s fun t =>
      t.lnk.hold = true ∧ t.lnk.st = .down ∧ t.lnk.errc = 0x0C ∧ t.lnk.err = s.lnk.err ∧
      (s.ctl.st = .linking → t.ctl.st = .running ∧ bit t.ctl.irq 0 = true)) ∧
    (s.lnk.st = .down → s.lnk.errc ≠ 0x0A → s.lnk.errc ≠ 0x0B → ∀ h : Bool,
      Carries (.holdDown (goodPar 0x3800 (word [(1, num h)])) h) s { s with lnk.hold := h, rg.err := false, rg.rdy := true })

/-- A write of the pattern store sets its word, which then reads back in its fields (its reserved bits read 0, R8), and voids the run
of its slot that has fallen due (R424; that a due run is under way is the model's reading, log 16). -/
def Obligations.PatternWords : Prop :=
  ∀ (i : BitVec 11) (d : Word) (s : State), s.coreUp = true → tabSorted s.chk.pat = true →
    Leaves (.patternStoreWrite (goodPar (0x8000 + 4 * i.toNat) d) i d) s fun t =>
      t.regRead (0x8000 + 4 * i.toNat) = some (d &&& patFields (i.toNat % 32)) ∧
      (∀ j < 2048, j ≠ i.toNat → t.regRead (0x8000 + 4 * j) = s.regRead (0x8000 + 4 * j)) ∧
      (∀ x, s.chk.patDue = some x → x / 4 = i.toNat / 32 → t.chk.patVoid = true) ∧ t.chk.err = s.chk.err ∧ t.rg = { s.rg with err := false, rdy := true }

/-! ### Test access -/

/-- The test access port (R78 to R80): from Run-Test/Idle and Test-Logic-Reset its instruction register is loaded with the code of the
network or of BYPASS, and SL_TST_TRST_N held low keeps the port as it is; a capture through the network returns the state's code, the
bond test's results or a value the manual leaves open (a free value, log 9), and an update leaves functional state alone outside test mode. That
a load ends in Run-Test/Idle, and that TAP_RESET is either edge of SL_TST_TRST_N, is the model's choice (log 9); that the instruction
register then holds 0b1111 and the segments leave the scan path is its choice too (log 27), and the states of the controller are those of IEEE
1149.1 (log 91). -/
def Obligations.TestAccess : Prop :=
  ∀ s : State,
    (s.ring.tapRst = false → (s.tap.st = .runTestIdle ∨ s.tap.st = .testLogicReset) →
      (let loaded (code : BitVec 4) : State :=
         { s with tap.ir := code, tap.sh := code, tap.st := .runTestIdle
                  tap.segs := if s.tap.st = .testLogicReset then 0 else s.tap.segs }
       Carries .ijtagAccess s (loaded 1) ∧ ∀ code : BitVec 4, code ≠ 1 → Carries (.bypass code) s (loaded code))) ∧
    (s.ring.tapRst = true → Carries .ijtagAccess s s ∧ ∀ code : BitVec 4, Carries (.bypass code) s s) ∧
    Carries .tapReset s { s with tap := { Tap.reset with n := s.tap.n }, ring.tapRst := !s.ring.tapRst } ∧
    (s.tap.ir = 1 →
      (∀ i : Instrument, Leaves (.ijtagInstrumentAccess i false) s fun t =>
        t.tap = { s.tap with
          last := some i, segs := setBit s.tap.segs (segOf i), n := s.tap.n + 1
          capture := if i = .stateCapture then BitVec.ofNat 64 (stCode s.ctl.st) else Config.freeCapture s.tap.n
          chain := if i = .bondChain then s.ring.bondBad else s.tap.chain } ∧
        { t.ring with pulses := s.ring.pulses, xerr := s.ring.xerr } = s.ring ∧ s.ring.xerr &&& t.ring.xerr = s.ring.xerr ∧
        t.ctl = s.ctl ∧ t.cfg = s.cfg ∧ t.arr = s.arr ∧ t.mp = s.mp ∧ t.home = s.home ∧ t.port = s.port ∧ t.knd = s.knd ∧ t.pin = s.pin ∧
        t.land = s.land ∧ t.qos = s.qos ∧ t.chk = s.chk ∧ t.pwr = s.pwr ∧ t.lnk = s.lnk ∧ t.rg = s.rg) ∧
      (∀ i : Instrument, s.ring.tstMode = false ∨ i ≠ .selfTest → Carries (.ijtagInstrumentAccess i true) s
        { s with tap.last := some i, tap.segs := setBit s.tap.segs (segOf i) }))

/-! ### Resets and clocks -/

/-- SL_RS_RST_N deasserted: OFF is left for FENCED, and the tie-offs are sampled (R35, R145). SL_RST_N deasserted: FENCED is left for
SHAPELESS, with every near-port credit owed to the clusters (R64, R134). SL_RST_N asserted (R132, R141, R144): the core is at its reset
values, the ring station's domain and the link layer's registers stay, CFG_RSTCAUSE.CORE is set, what is to come of the commands that have
transferred to memory is still awaited (R129), each request that waits undecoded at the ring station is answered ERR_NOTRUN, and the flits
there for transactions of the core are dropped and counted. SL_PW_FREQ_REQ still high is acknowledged, as in FENCED (R442, log 21); that the
requests waiting at the near ports vanish without an answer is the model's reading (log 24). -/
def Obligations.CoreResets : Prop :=
  (∀ s : State,
    (∀ (slice : Id12) (die : BitVec 4) (edge : Bool) (itag : BitVec 64), s.ctl.st = .off →
      Carries (.ringResetDeassert slice die edge itag) s
        { s with ctl.st := .fenced, ring.rsRst := false, ring.tieSlice := slice, ring.tieDie := die, ring.tieEdge := edge
                 ring.tieItag := itag }) ∧
    (s.ctl.st = .fenced → Carries .coreResetExit s
      { s with ctl.st := .shapeless, ring.coreRst := false, port.npa.owed := [32, 0, 32, 64], port.npb.owed := [32, 0, 32, 64] })) ∧
  (∀ s : State, s.ctl.st ≠ .off → Leaves .coreResetAssert s fun t =>
    t.ctl = { Ctl.reset with st := .fenced } ∧ t.cfg = .reset ∧ t.arr = { Arr.reset with undef := s.arr.undef } ∧ t.home = .reset ∧
    t.knd = .reset ∧ t.pin = .reset ∧ t.land = .reset ∧ t.qos = .reset ∧ t.chk = .reset ∧
    t.ring = { s.ring with coreRst := true, rstcause := setBit s.ring.rstcause 1 } ∧
    t.lnk.cfg = s.lnk.cfg ∧ t.lnk.err = s.lnk.err ∧ t.lnk.tx = s.lnk.tx ∧
    (t.pwr.ack = s.pwr.req ∧ t.pwr.req = s.pwr.req) ∧
    t.mp.hold = [] ∧ t.mp.flushRd = s.mp.flushRd ++ (s.mp.miss.filter fun m => s.awaits m.1).map (fun m => m.1) ∧
    t.mp.flushWr = s.mp.flushWr ++ (s.mp.hold.filter fun w => w.st = .sent).map (fun w => w.tag) ∧
    (s.mp.wdFifo = [] → t.mp.flushWd = s.mp.flushWd) ∧
    (∀ (k : Nat) (w : Wr), s.mp.wdFifo = [k] → s.wrOf k = some w → w.st = .sent →
      t.mp.flushWd = s.mp.flushWd ++ [(k, w.data, w.pois, w.crust)]) ∧
    t.port.dropped = s.port.dropped + s.port.rx.rsp.length +
      (s.port.rx.dat.filter fun d => !(isPayload d.f && s.port.rx.req.any fun q => flitName q.f = flitName d.f)).length ∧
    t.port.ready = (s.port.ready.filter fun m => !m.own) ++ s.port.rx.req.map fun q =>
      (let f := rspFlit (flitName q.f).sty (flitName q.f).src (flitName q.f) 0 2 false 0 0 false 0 0
       { port := 0, cls := reqCls q.f, vc := 2, link := some (s.linkFor f), line := none, own := false, sample := false, pay := []
         sad := false, flits := [f] }))

/-- The memory port's reset and clock (R125, R127, R128): an assertion or a stopped MCK takes the port down, with its FIFOs empty and
every held write to be issued again before any other command; a read that waits on memory is completed with COMP_DATA, POIS 1 and zeros, and
so is each request that waits with it (R127); the port comes up when its reset is deasserted with MCK running, every
held write going first. While the reset is asserted a stopped MCK only lowers CFG_CLKST.MCK_RUN (R138). -/
def Obligations.MemoryPortUpDown : Prop :=
  ∀ s : State, s.ctl.st ≠ .off →
    (let down (t : State) : Prop :=
       t.ring.mpUp = false ∧ t.mp.cmdFifo = [] ∧ t.mp.wdFifo = [] ∧ t.mp.rdFifo = [] ∧
       t.mp.rdWait = [] ∧ (∀ w ∈ t.mp.hold, w.st = .ready ∧ w.wdSent = false ∧ w.again = true) ∧ t.mp.hold.length = s.mp.hold.length ∧
       t.arr = s.arr ∧ t.home.sf = s.home.sf
     let first (l : List Wr) : List Wr := l.map fun w => { w with again := true }
     (s.ring.mpRst = false → s.home.ht = [] → Leaves .mpResetAssert s fun t =>
       down t ∧ t.ring.mpRst = true ∧ t.ring.rstcause = setBit s.ring.rstcause 2) ∧
     (s.ring.mpRst = false → s.home.ht = [] → Leaves .mckStop s fun t =>
       down t ∧ t.ring.mckRun = false ∧ t.ring.mpNeedRst = true ∧ t.ring.xerr = setBit s.ring.xerr 0) ∧
     (∀ (e k : Nat) (h : Ht) (m : Miss) (r : Req) (c : Instr), (c = .mpResetAssert ∨ c = .mckStop) → s.ring.mpRst = false →
       s.home.ht = [(e, h)] → h.why = .req r → h.passed = false → h.rclm = false → r.opc.toNat ≤ 2 → s.missOf e = some (k, m) → (m.st = .alloc ∨ m.st = .issued) →
       Leaves c s fun t =>
         t.ring.mpUp = false ∧ t.home.ht = [] ∧ t.home.sf = s.home.sf ∧ t.missOf e = none ∧
         ∀ q ∈ r :: m.waiters, ∃ a ∈ t.port.ready, ∃ b ∈ t.port.ready, ∃ scopew : Bool, a.port = portOf q.src ∧ b.port = portOf q.src ∧
           a.flits = [rspFlit q.name.sty q.name.src q.name 1 0 true 0 2 scopew 0 0] ∧
           b.flits = lineFlits q.name.sty q.name.src q.name 0 0 true true (crust q.line 0)) ∧
     (s.ring.mpRst = true → Carries .mckStop s { s with ring.mckRun := false }) ∧
     (s.ring.mpRst = true →
       (s.ring.mckRun = true → s.ring.mpUp = false → Carries .mpResetDeassert s
         { s with ring.mpRst := false, ring.mpNeedRst := false, ring.mpUp := true, mp.hold := first s.mp.hold }) ∧
       ((s.ring.mckRun = false ∨ s.ring.mpUp = true) → Carries .mpResetDeassert s
         { s with ring.mpRst := false, ring.mpNeedRst := false })) ∧
     (s.ring.mpRst = false → s.ring.mpNeedRst = false → s.ring.mpUp = false → Carries .mckAlive s
       { s with ring.mckRun := true, ring.mpUp := true, mp.hold := first s.mp.hold }) ∧
     ((s.ring.mpRst = true ∨ s.ring.mpNeedRst = true ∨ s.ring.mpUp = true) → Carries .mckAlive s { s with ring.mckRun := true }))

/-- The PHY side of the saddle port (R104, R126, R131): its reset and a stopped PCK take an enabled port down with LNK_PRST and
LNK_PCKSTOP, the FIFO of the crossing emptied and the outputs to the PHY returning to their reset values at the reset (R83, R132; for PHY_REQ,
PHY_RATE and PHY_SSC the model's reading, log 95); when the reset is released or PCK runs again, a port that may train starts full training
by itself. While PCK is not watched its stop only lowers CFG_CLKST.PCK_RUN (R138). That the transmit queue outlives the link is the model's
choice (log 37), and so is what a training that follows a loss is remembered by (log 18). -/
def Obligations.PhySide : Prop :=
  ∀ s : State, s.ctl.st ≠ .off →
    (let down (t : State) (code : BitVec 5) : Prop :=
       t.lnk.st = .down ∧ t.lnk.errc = code ∧ t.lnk.laneEn = 0 ∧ t.lnk.replay = [] ∧ t.lnk.txFifo = [] ∧ t.lnk.tx = s.lnk.tx ∧
       (s.lnk.served = true → t.lnk.err = setBit s.lnk.err 3 ∧ t.lnk.lost = true)
     let enabled := s.ring.tieEdge = true ∧ s.lnk.cfg.enable = true
     (s.ring.spRst = false → enabled → s.lnk.st = .up → Leaves .phyResetAssert s fun t =>
       down t 0x0B ∧ t.lnk.phyReq = false ∧ t.lnk.phyRate = 0 ∧ t.lnk.phySsc = false ∧
       t.ring = { s.ring with spRst := true, rstcause := setBit s.ring.rstcause 3 }) ∧
     (s.watchPck = true → s.lnk.st = .up → Leaves .pckStop s fun t =>
       down t 0x0A ∧ t.ring = { s.ring with xerr := setBit s.ring.xerr 1, pckRun := false }) ∧
     (s.watchPck = false → Carries .pckStop s { s with ring.pckRun := false }) ∧
     (s.ring.spRst = true → s.lnk.st = .down → s.lnk.errc = 0x0B → s.mayTrain = true → s.ctl.st = .running →
       Leaves .phyResetDeassert s fun t =>
         t.ring = { s.ring with spRst := false } ∧ (s.ring.pckRun = true → t.lnk.st = .detect ∧ t.lnk.lost = s.lnk.lost) ∧
         (s.ring.pckRun = false → t.lnk = s.lnk)) ∧
     (s.ring.spRst = false → s.lnk.st = .down → s.lnk.errc = 0x0A → s.mayTrain = true → s.ctl.st = .running →
       Leaves .pckAlive s fun t =>
         t.ring = { s.ring with pckRun := true } ∧ t.lnk.st = .detect ∧ t.lnk.lost = s.lnk.lost))

/-! ### Power, energy, counters -/

/-- Droop and throttle (R434 to R436, R442): the caps of the table, and what the two inputs do; droop recognised during a preparation
abandons it, and the read beats that waited are used. That a level is recognised only with the core out of reset is the model's choice
(log 17), and so is the queue in which read beats wait (log 93). -/
def Obligations.PowerCaps : Prop :=
  (∀ s : State, s.capNB = 8 - s.pwr.thr.toNat ∧
    s.capNK = if s.pwr.droop = true ∧ s.pwr.thr.toNat < 4 then 4 else 8 - s.pwr.thr.toNat) ∧
  (∀ s : State, s.coreUp = true →
    (∀ l : BitVec 3, Carries (.throttleTaken l) s { (s.evq 155 l.toNat) with pwr.thr := l }) ∧
    (s.pwr.droop = false → s.pwr.fstate ≠ .preparing →
      Carries .droopAssert s { s with pwr.droop := true, pwr.err := setBit s.pwr.err 2 }) ∧
    (s.pwr.droop = false → s.pwr.fstate = .preparing →
      (s.mp.rdFifo = [] → s.mp.rdWait = [] → Carries .droopAssert s
        { (s.ev 157) with pwr.droop := true, pwr.err := setBit (setBit s.pwr.err 2) 1, pwr.fstate := .deferred }) ∧
      Leaves .droopAssert s fun t =>
        { t.pwr with acc := s.pwr.acc } = { s.pwr with droop := true, err := setBit (setBit s.pwr.err 2) 1, fstate := .deferred } ∧
        t.mp.rdFifo = [] ∧ t.mp.rdWait = [] ∧ t.cfg = s.cfg)) ∧
  (∀ s : State, s.pwr.droop = true → Carries .droopLift s { s with pwr.droop := false })

/-- The frequency handshake (R440 to R443). SL_PW_FREQ_REQ recognised high: the rows of R440 in their order, where `recent` stands for
a droop fraction lifted fewer than 64 ACK cycles before. A deferral ends in preparation, a preparation in SL_PW_FREQ_ACK high; when
the request falls the handshake is complete and every bank group enters the ramp at RL_START, or the request is withdrawn with
PWR_ERR.FABORT; work that was stopped goes on. That a request deferred by INITIALIZING waits for a droop too is the model's choice (log 109),
and so is the queue in which read beats wait (log 93). -/
def Obligations.FrequencyHandshake : Prop :=
  (∀ (recent : Bool) (s : State), s.ctl.st ≠ .off → s.pwr.req = false →
    (s.ctl.st = .fenced → Carries (.freqReqHigh recent) s { s with pwr.req := true, pwr.fstate := .acked, pwr.ack := true }) ∧
    (s.ctl.st ≠ .fenced → s.pwr.fixed = true →
      Carries (.freqReqHigh recent) s { (s.ev 157) with pwr.req := true, pwr.err := setBit s.pwr.err 0 }) ∧
    (s.ctl.st = .initializing → s.pwr.fixed = false →
      Carries (.freqReqHigh recent) s { (s.ev 157) with pwr.req := true, pwr.fstate := .deferred }) ∧
    (s.ctl.st ≠ .fenced → s.ctl.st ≠ .initializing → s.pwr.fixed = false → (s.pwr.droop || recent) = true →
      Carries (.freqReqHigh recent) s { (s.ev 157) with pwr.req := true, pwr.fstate := .deferred, pwr.err := setBit s.pwr.err 1 }) ∧
    (s.ctl.st ≠ .fenced → s.ctl.st ≠ .initializing → s.pwr.fixed = false → s.pwr.droop = false → recent = false →
      Carries (.freqReqHigh recent) s { s with pwr.req := true, pwr.fstate := .preparing })) ∧
  (∀ s : State,
    (s.pwr.fstate = .deferred → s.ctl.st ≠ .initializing → s.pwr.droop = false →
      Carries .freqDeferEnd s { s with pwr.fstate := .preparing }) ∧
    (s.pwr.fstate = .preparing → Carries .freqPrepDone s { s with pwr.fstate := .acked, pwr.ack := true }) ∧
    (s.pwr.req = true → (s.pwr.fstate = .deferred ∨ (s.pwr.fstate = .preparing ∧ s.mp.rdFifo = [] ∧ s.mp.rdWait = [])) →
      Carries .freqReqLow s { s with pwr.req := false, pwr.fstate := .idle, pwr.ack := false, pwr.err := setBit s.pwr.err 3 }) ∧
    (s.pwr.req = true → (s.pwr.fstate = .preparing ∨ s.pwr.fstate = .acked) → Leaves .freqReqLow s fun t =>
      { t.pwr with acc := s.pwr.acc } = { s.pwr with
        req := false, fstate := .idle, ack := false, err := if s.pwr.fstate = .acked then s.pwr.err else setBit s.pwr.err 3 } ∧
      t.mp.rdFifo = [] ∧ t.mp.rdWait = [] ∧ t.cfg = s.cfg) ∧
    (s.pwr.req = true → s.pwr.fstate = .acked → s.mp.rdFifo = [] → s.mp.rdWait = [] → Leaves .freqReqLow s fun t =>
      t.pwr = { s.pwr with req := false, fstate := .idle, ack := false } ∧
      (s.cfg.qos.rlEn = true → t.qos.idle = 0 ∧ ∀ g < 4, nth t.qos.ramp g none =
        if s.cfg.qos.rlStart = 3 then none else some s.cfg.qos.rlStart.toNat) ∧
      (s.cfg.qos.rlEn = false → t.qos = s.qos) ∧ t.ctl = s.ctl ∧ t.arr = s.arr ∧ t.home = s.home))

/-- What a counter adds in a CCK cycle from the number k of its event's occurrences in that cycle: k in mode COUNT, 1 when k ≥ 1 in
LEVEL, 1 when k ≥ 1 and the previous cycle had none in EDGE. -/
def Obligations.CountingModes : Prop :=
  ∀ (m : BitVec 16) (i : Nat) (now prev : List PmcEv),
    (m.extractLsb' 0 2 = 0 → adds m i now prev = occurs m i now) ∧
    (m.extractLsb' 0 2 = 1 → adds m i now prev = if occurs m i now ≥ 1 then 1 else 0) ∧
    (m.extractLsb' 0 2 = 2 → adds m i now prev = if occurs m i now ≥ 1 ∧ occurs m i prev = 0 then 1 else 0)

/-- A counter that wraps in a cycle, whose own events, droop, SL_PW_FREQ_ACK high and a report that begins, are among those counted (R448,
R450, R451, R454, R455): every counter takes its increment of the cycle, the wrap sets the counter's PMC_OVF bit
unless its partner is chained to it, and with FOVF at 1 it sets FREEZE. That the command ends its CCK cycle, so that POWCYC counts and the next
cycle begins without occurrences, is the model's choice (log 2). -/
def Obligations.CounterWraps : Prop :=
  ∀ (i : Nat) (s : State), i < 160 → s.cycleWhole.wraps i = true →
    Leaves (.counterWrap i) s fun t =>
      (∀ j < 160, nth t.pmc.cnt j 0 = nth s.pmc.cnt j 0 + BitVec.ofNat 40 (s.cycleWhole.addend j)) ∧
      (s.chained (i + 1) = false → nth t.pmc.ovf i false = true) ∧
      (bit (s.mode i) 3 = true → t.pmc.freeze = true ∧ t.pmc.fvalid = true) ∧
      t.ring.powcyc = s.ring.powcyc + 1 ∧ t.pmc.now = []

/-! ### Ports (02, 13) -/

/-- What the station does with a flit on an in-link. One whose header fails parity is removed, with CHK_ERR.PARITY, a count and a record; one
that is not for this slice and does not leave over its saddle port leaves on the same out-link with the parity it came with, whatever other
words fail (R37, R55, R402): where a flit has waited 32 cycles it goes into the insertion buffer, one waiting
flit taking its place, and while the buffer holds a flit it takes the next one and gives up its own (R60). A flit bound for a die that the
saddle port forwards enters its transmit queue, and is declined when that is full (R106). Of the flits for this slice a REQ flit enters its
queue while there is room for it and is declined otherwise, going on with BNC up by one (R58), an answer that is awaited and good in words 0 to 5
enters its queue, line data of an open transaction and payload with a reserved entry enter theirs, marked when a word fails, and other answers and
line data are dropped as STRAY (R59, R402). A broadcast of this slice that returns ends the sweep of its die, and one it relayed is answered
SNP_SWEPT (R51, R229). -/
def Obligations.RingArrivals : Prop :=
  (∀ (d : Dir) (f : Flit) (par : FlitPar) (lat : List (BitVec 16)) (s : State), s.ctl.st ≠ .off →
    (let bad := par ^^^ flitPar f
     let l := s.link d
     (bit bad 0 || bit bad 1) = true → Leaves (.ringFlitArrival d f par lat) s fun t =>
       t.link d = { l with out := [], par := [] } ∧ t.port.rx = s.port.rx ∧ t.home = s.home ∧ t.arr = s.arr ∧ t.lnk = s.lnk ∧
       (s.coreUp = true → bit t.chk.err 0 = true ∧ t.chk.exh = satAdd s.chk.exh 1))) ∧
  (∀ (d : Dir) (f : Flit) (par : FlitPar) (lat : List (BitVec 16)) (s : State), s.ctl.st ≠ .off →
    (flitVc f ≠ 1 ∨ flitBcast f = false ∨ (flitName f).sty = false ∨
      ((flitName f).src ≠ s.ring.tieSlice ∧ s.port.relayed.contains (flitName f) = false)) →
    (let bad := par ^^^ flitPar f
     let mine := flitDtyp f && flitDst f = s.ring.tieSlice && !flitBcast f
     let l := s.link d
     let arrives : Instr := .ringFlitArrival d f par lat
     let still (t : State) : Prop := t.home = s.home ∧ t.arr = s.arr ∧ t.port.bad = s.port.bad + (if bad = 0 then 0 else 1)
     let goesOn (t : State) : Prop := t.port.rx = s.port.rx ∧ (t.link d).out = [bounced f] ∧ (t.link d).par = [bouncedPar f par] ∧ still t
     bit bad 0 = false → bit bad 1 = false →
     (mine = false → s.saddleBound f = false →
       (l.ins = none → (l.arm = false ∨ l.inj.waiting = false) → Leaves arrives s fun t =>
         t.link d = { l with out := [f], par := [par] } ∧ t.port.rx = s.port.rx ∧ still t) ∧
       (∀ g, l.ins = some g → Leaves arrives s fun t =>
         t.link d = { l with ins := some f, insP := par, out := [g], par := [l.insP] } ∧ t.port.rx = s.port.rx ∧ still t) ∧
       (l.ins = none → l.arm = true → l.inj.waiting = true → l.inj.run < 4 → Leaves arrives s fun t =>
         (t.link d).ins = some f ∧ (t.link d).insP = par ∧ (t.link d).arm = false ∧ (t.link d).out.length = 1 ∧ still t)) ∧
     (mine = false → s.saddleBound f = true →
       (let room := ((s.lnk.sel ++ s.lnk.tx).filter fun x => flitVc x.f = flitVc f).length < 64
        (room → Leaves arrives s fun t => t.lnk = { s.lnk with
          tx := s.lnk.tx ++ [⟨f, if flitVc f = 0 then reqCls f else s.cfg.qos.iclass, false, false, bad, s.ring.powcyc⟩] } ∧
          (t.link d).out = [] ∧ t.port.rx = s.port.rx ∧ still t) ∧
        (¬room → l.ins = none → l.arm = false → Leaves arrives s goesOn))) ∧
     (mine = true → s.coreUp = true →
       (flitVc f = 0 →
         (s.reqRoom f = true → Leaves arrives s fun t =>
           t.port.rx.req = s.port.rx.req ++ [⟨f, bad != 0⟩] ∧ (t.link d).out = [] ∧ still t) ∧
         (s.reqRoom f = false → l.ins = none → l.arm = false → Leaves arrives s goesOn)) ∧
       (flitVc f = 1 → bad ≠ 0 → Leaves arrives s fun t => t.port.rx = s.port.rx ∧ (t.link d).out = [] ∧ still t) ∧
       (flitVc f = 2 →
         ((fld bad 2 4 : BitVec 4) ≠ 0 → Leaves arrives s fun t => t.port.rx = s.port.rx ∧ (t.link d).out = [] ∧ still t) ∧
         ((fld bad 2 4 : BitVec 4) = 0 → (rspType f).toNat ≤ 16 → s.deadReq (flitName f) = false →
           (s.rspOpen f = true → Leaves arrives s fun t =>
             t.port.rx.rsp = s.port.rx.rsp ++ [⟨f, false⟩] ∧ (t.link d).out = [] ∧ still t) ∧
           (s.rspOpen f = false → Leaves arrives s fun t =>
             t.port.rx = s.port.rx ∧ bit t.home.err 0 = true ∧ t.home.ht = s.home.ht ∧ t.home.sf = s.home.sf ∧ t.arr = s.arr))) ∧
       (flitVc f = 3 → s.isLineData f = true → s.datDead f = false →
         (s.datOpen f = true → Leaves arrives s fun t =>
           t.port.rx.dat = s.port.rx.dat ++ [⟨f, bad != 0⟩] ∧ (t.link d).out = [] ∧ still t) ∧
         (s.datOpen f = false → Leaves arrives s fun t =>
           t.port.rx = s.port.rx ∧ bit t.home.err 0 = true ∧ t.home.ht = s.home.ht ∧ t.home.sf = s.home.sf ∧ t.arr = s.arr)) ∧
       (flitVc f = 3 → s.isLineData f = false →
         (txCount s.port.rx.resv (flitName f) > 0 → Leaves arrives s fun t =>
           t.port.rx.dat = s.port.rx.dat ++ [⟨f, bad != 0⟩] ∧ (t.link d).out = [] ∧ still t) ∧
         (txCount s.port.rx.resv (flitName f) = 0 → txCount s.port.rx.late (flitName f) = 0 → txCount s.port.rx.drop (flitName f) = 0 →
           isPayload f = true → l.ins = none → l.arm = false → Leaves arrives s goesOn))))) ∧
  (∀ (d : Dir) (f : Flit) (lat : List (BitVec 16)) (s : State), s.ctl.st ≠ .off → flitVc f = 1 → flitBcast f = true →
    (flitName f).sty = true →
    (let s' := s.setLink d { s.link d with out := [], par := [] }
     let idx := (flitName f).txn.toNat
     let arrives : Instr := .ringFlitArrival d f (flitPar f) lat
     (s.port.relayed.contains (flitName f) = true → Leaves arrives s fun t =>
       t.port.relayed = s.port.relayed.erase (flitName f) ∧ (t.link d).out = [] ∧ t.home = s.home ∧
       ∃ m, t.port.ready = s.port.ready ++ [m] ∧ m.flits = [rspFlit true (f.extractLsb' 210 12) ⟨true, s.ring.tieSlice, (flitName f).txn⟩
         0x10 0 false 0 0 false s.homeDie 0]) ∧
     (s.port.relayed.contains (flitName f) = false → (flitName f).src = s.ring.tieSlice →
       (∀ h, tabGet s.home.ht idx = some h → bit h.sweep s.homeDie = true → h.sw = false → Carries arrives s
         (s'.advance idx { h with sweep := clrBit h.sweep s.homeDie, swept := setBit h.swept s.homeDie } .ok)) ∧
       (tabGet s.home.ht idx = none → Carries arrives s s'))))

/-- An out-link injects (R60, R61): a waiting flit may claim the insertion buffer after 32 cycles; an empty slot takes the insertion
buffer's flit first, else the flits of the channel whose turn it is: 1, or of DAT what is left of a turn of 4. A DAT turn goes on
while it has sent fewer than 4 and flits may leave, and the turn passes to the next channel otherwise; what leaves has its parity computed, and
the claim on the insertion buffer lasts while a flit waits that had waited 32 cycles. That one command sends what is left of a turn, and that a
flit of the insertion buffer leaves the turn as it is, are the model's choices (log 43). -/
def Obligations.RingInjection : Prop :=
  ∀ (d : Dir) (lat : List (BitVec 16)) (s : State), s.ctl.st ≠ .off →
    (let l := s.link d
     (l.ins = none → l.arm = false → l.inj.waiting = true → Carries (.insertionTimeout d) s
       (s.setLink d { l with arm := true, armAt := l.inj.since })) ∧
     (∀ f, l.ins = some f → Leaves (.ringInject d lat) s fun t =>
       t.link d = { l with ins := none, out := [f], par := [l.insP] } ∧ t.home = s.home ∧ t.arr = s.arr) ∧
     (∀ vc, l.ins = none → turnOf l.inj.turn (fun v => !(l.inj.free v).isEmpty) = some vc →
       (let fs := (l.inj.free vc).take (Nat.min 4 (l.inj.most vc))
        Leaves (.ringInject d lat) s fun t =>
          (t.link d).out = fs.map (fun x => x.f) ∧ (t.link d).par = fs.map (fun x => flitPar x.f) ∧
          (t.link d).inj.q vc = (l.inj.q vc).drop fs.length ∧ (∀ v < 4, v ≠ vc → (t.link d).inj.q v = l.inj.q v) ∧
          (t.link d).inj.turn = (if vc = 3 ∧ l.inj.run + fs.length < 4 ∧ (t.link d).inj.free 3 ≠ [] then 3 else (vc + 1) % 4) ∧
          (t.link d).arm = (l.arm && (t.link d).inj.waitsSince l.armAt) ∧ t.home = s.home ∧ t.arr = s.arr)))

/-- A near port (R62 to R65, R257, R402, R479). In a cycle it returns at most 2 credits per channel of those it owes, whatever flits come;
a good REQ flit, an answer that is awaited and a payload flit with a reserved entry enter their queues, and a snoop is dropped with
COH_ERR.SNPIN. The cluster's credits are added to those held; a turn sends flits of one channel that holds credits, one credit each,
with their parity. A port the dead table names keeps nothing it receives and sends nothing. That one command sends the rest of a turn, that
credit code 0b11 returns none, and that a dead port discards its queue at a transmit, are the model's choices (log 43). -/
def Obligations.NearPorts : Prop :=
  ∀ (n : Near) (s : State), s.coreUp = true →
    (let p := s.near n
     (∀ fs, Leaves (.nearPortReceive n fs) s fun t =>
       (∀ vc < 4, (fld (t.near n).crd (2 * vc) 2 : BitVec 2).toNat ≤ 2) ∧ (t.near n).held = p.held ∧ (t.near n).inj = p.inj ∧
       t.home.ht = s.home.ht ∧ t.home.sf = s.home.sf ∧ t.home.q = s.home.q ∧ t.arr = s.arr ∧ t.cfg = s.cfg) ∧
     Leaves (.nearPortReceive n []) s (fun t =>
       (∀ vc < 4, nth (t.near n).owed vc 0 + (fld (t.near n).crd (2 * vc) 2 : BitVec 2).toNat = nth p.owed vc 0) ∧
       (t.near n).rx = p.rx ∧ t.home = s.home) ∧
     (s.nearDead n = false → ∀ f : Flit,
       (flitVc f = 0 → Leaves (.nearPortReceive n [(f, flitPar f)]) s fun t =>
         (t.near n).rx.req = p.rx.req ++ [⟨f, false⟩] ∧ t.home = s.home ∧ t.port.rx = s.port.rx) ∧
       (flitVc f = 1 → Leaves (.nearPortReceive n [(f, flitPar f)]) s fun t =>
         (t.near n).rx = p.rx ∧ t.home = { s.home with err := setBit s.home.err 1 }) ∧
       (flitVc f = 2 → (rspType f).toNat ≤ 16 → s.deadReq (flitName f) = false → s.rspOpen f = true →
         Leaves (.nearPortReceive n [(f, flitPar f)]) s fun t => (t.near n).rx.rsp = p.rx.rsp ++ [⟨f, false⟩] ∧ t.home = s.home) ∧
       (flitVc f = 3 → s.isLineData f = false → txCount p.rx.resv (flitName f) > 0 →
         Leaves (.nearPortReceive n [(f, flitPar f)]) s fun t => (t.near n).rx.dat = p.rx.dat ++ [⟨f, false⟩] ∧ t.home = s.home)) ∧
     (s.nearDead n = false → ∀ crd : Byte, Leaves (.nearPortCredit n crd) s fun t =>
       (∀ vc < 4, nth (t.near n).held vc 0 = nth p.held vc 0 + crdCount crd vc) ∧ (t.near n).inj = p.inj ∧ (t.near n).rx = p.rx ∧
       t.home = s.home) ∧
     (s.nearDead n = false → ∀ (lat : List (BitVec 16)) (vc : Nat),
       turnOf p.inj.turn (fun v => !(p.inj.free v).isEmpty && nth p.held v 0 != 0) = some vc →
       (let fs := (p.inj.free vc).take (Nat.min (p.inj.most vc) (nth p.held vc 0))
        Leaves (.nearPortTransmit n lat) s fun t =>
          (t.near n).out = fs.map (fun x => x.f) ∧ (t.near n).par = fs.map (fun x => flitPar x.f) ∧
          nth (t.near n).held vc 0 + fs.length = nth p.held vc 0 ∧ (t.near n).inj.q vc = (p.inj.q vc).drop fs.length ∧
          (t.near n).inj.turn = (vc + 1) % 4 ∧ (t.near n).rx = p.rx ∧ t.home = s.home ∧ t.arr = s.arr)) ∧
     (s.nearDead n = true →
       (∀ fs, Leaves (.nearPortReceive n fs) s fun t => (t.near n).rx = p.rx) ∧
       (∀ crd : Byte, Carries (.nearPortCredit n crd) s s) ∧
       (∀ lat : List (BitVec 16), p.inj.waiting = true → Leaves (.nearPortTransmit n lat) s fun t =>
         (t.near n).out = [] ∧ (t.near n).inj.waiting = false ∧ (t.near n).held = p.held ∧ t.home = s.home)))

/-- The arbiters (R388): a chosen offer has the highest current priority of the offers it may be chosen from, those with credit 256 or
more where there are any, and is the earliest of its priority; a message granted at port 0, 1 or 2 enters its queue whole, port 0 choosing for
east-out and then for west-out, and the credit of one that leaves the saddle receive buffer is owed to the partner (R107); a read granted at port
3 enters the command FIFO, its register ISSUED, and a write granted at port 4 the command and the data FIFO. That the command's operand names the
out-link, and that credits are paid for each flit as its message is chosen, are the model's choices (log 43). -/
def Obligations.Arbitration : Prop :=
  (∀ (p : Nat) (cs : List (BitVec 4)) (i : Nat) (res : Bool) (s : State), s.arbitrate p cs = some (i, res) →
    ∃ c, cs[i]? = some c ∧ (res = true → s.credit p c ≥ 256) ∧ (res = false → ∀ x ∈ cs, s.credit p x < 256) ∧
      ∀ (j : Nat) (x : BitVec 4), cs[j]? = some x → (res = true → s.credit p x ≥ 256) →
        s.prio x ≤ s.prio c ∧ (s.prio x = s.prio c → i ≤ j)) ∧
  (∀ (d : Dir) (i k : Nat) (res : Bool) (m : Msg) (s : State), s.chk.upsets = [] →
    (s.ctl.st ≠ .off → s.arbitrate 0 ((s.readyAt 0 d).map fun x => x.2.cls) = some (i, res) → (s.readyAt 0 d)[i]? = some (k, m) →
      (d = .east → s.port.eastMade = false ∨ s.readyAt 0 .west = []) → (d = .west → s.port.eastMade = true ∨ s.readyAt 0 .east = []) →
      Leaves (.portGrant 0 d) s fun t =>
        t.port.ready = s.port.ready.eraseIdx k ∧ (t.link d).inj = (s.link d).inj.enter s.ring.powcyc m ∧ t.home = s.home ∧
        t.port.eastMade = (d == .east) ∧
        t.qos.k = (s.pay 0 m.cls (m.flits.length + m.pay.length) res).qos.k ∧
        t.lnk.owed = if m.sad then upd s.lnk.owed m.vc.toNat (· + 1) else s.lnk.owed) ∧
    (s.coreUp = true → ∀ n : Near, (let p : BitVec 3 := match n with
        | .a => 1
        | .b => 2
      s.arbitrate p.toNat ((s.readyAt p.toNat d).map fun x => x.2.cls) = some (i, res) → (s.readyAt p.toNat d)[i]? = some (k, m) →
      Leaves (.portGrant p d) s fun t =>
        t.port.ready = s.port.ready.eraseIdx k ∧ (t.near n).inj = (s.near n).inj.enter s.ring.powcyc m ∧ t.home = s.home))) ∧
  (∀ (d : Dir) (s : State), s.coreUp = true →
    (∀ t m res, s.pick = .read t m res → Leaves (.portGrant 3 d) s fun u =>
      u.mp.cmdFifo = s.mp.cmdFifo ++ [⟨false, m.line.ln, BitVec.ofNat 8 t, m.cls⟩] ∧ tabGet u.mp.miss t = some { m with st := .issued } ∧
      u.mp.wdFifo = s.mp.wdFifo ∧ u.mp.hold = s.mp.hold ∧ u.qos.k = (s.pay 3 m.cls 1 res).qos.k ∧ u.home = s.home ∧ u.arr = s.arr) ∧
    (∀ w res, s.pick = .write w res → s.chk.upsets = [] → Leaves (.portGrant 4 d) s fun u =>
      u.mp.cmdFifo = s.mp.cmdFifo ++ [⟨true, w.line.ln, BitVec.ofNat 8 w.tag, w.cls⟩] ∧ u.mp.wdFifo = s.mp.wdFifo ++ [w.tag] ∧
      (∀ v ∈ u.mp.hold, v.tag = w.tag → v.st = .fifo ∧ v.again = false ∧ v.iss ≠ none) ∧ u.mp.hold.length = s.mp.hold.length ∧
      u.mp.miss = s.mp.miss ∧ u.qos.k = (s.pay 4 w.cls 1 res).qos.k ∧ u.home = s.home ∧ u.arr = s.arr))

/-- The front end (R45, R142, R316, R473, R474, R478): a request that fails a check is answered with the code of the first check it
fails, in the order of R474 (a misaligned scalar ATOMIC and a SCAN with LEN not 0 with ERR_DECODE), as is one with a bad word, and one that passes
reaches the home engine, the scan queue, the queue of the range requests of its opcode, or the pinning manager; a payload flit joins those of its
transaction, and one with a wrong DKIND or bad parity ends a queued write with ERR_DECODE; a request whose payload does not come in RUNNING is
answered ERR_TIMEOUT with POIS 1. A WRITE_UNIQUE of a slice that is no move is answered ERR_NOTRUN. -/
def Obligations.FrontEnd : Prop :=
  (∀ (r : Req) (s : State), s.isMove r = false →
    (s.ctl.st ≠ .running → s.evictable r = false → s.decodeCheck r = some 2) ∧
    (r.name.sty = true → r.opc = 6 → s.decodeCheck r = some 2) ∧
    (s.ctl.st = .running → r.opc.toNat ≥ 15 → s.decodeCheck r = some 3) ∧
    (s.ctl.st = .running → r.opc.toNat < 15 → r.ext = true → r.opc ≠ 6 → s.decodeCheck r = some 4) ∧
    (s.ctl.st = .running → (r.name.sty = false ∨ r.opc ≠ 6) → r.opc.toNat < 15 → (r.ext = false ∨ r.opc = 6) →
      plenOk r.opc r.plen.toNat = false → s.decodeCheck r = some 3) ∧
    (s.ctl.st = .running → (r.name.sty = false ∨ r.opc ≠ 6) → (r.ext = false ∨ r.opc = 6) → plenOk r.opc r.plen.toNat = true →
      (let odd := r.opc = 8 ∧ r.op ≤ 10 ∧
         (((r.kfmt = 2 ∨ r.kfmt = 4) ∧ r.addr.toNat % 4 ≠ 0) ∨ (r.kfmt = 3 ∧ r.addr.toNat % 8 ≠ 0))
       let spoilt := r.plen ≠ 0 ∧ payBad r (s.payload r) = true
       (r.opc.toNat ≤ 9 → odd → s.decodeCheck r = some 3) ∧
       (r.opc.toNat ≤ 9 → ¬odd → s.decodeCheck r = if spoilt then some 3 else if s.homed r then none else some 1) ∧
       (r.opc = 10 → s.decodeCheck r = if r.len ≠ 0 ∨ spoilt then some 3 else none) ∧
       (11 ≤ r.opc.toNat → r.opc.toNat ≤ 14 → s.decodeCheck r = none)))) ∧
  (∀ (x : Src) (i : Nat) (q : QFlit) (r : Req) (s : State), s.coreUp = true → s.nothingWaits → s.nextReq x = some (i, q, r) →
    (q.bad = true → Leaves (.requestDecode x 0) s fun t =>
      t.port.ready = s.port.ready ++ [s.compMsg r 3 false 0 false] ∧ t.home = s.home ∧ t.arr = s.arr) ∧
    (q.bad = false → ∀ code, s.decodeCheck r = some code → code ≠ 0 → code ≠ 9 → Leaves (.requestDecode x 0) s fun t =>
      t.port.ready = s.port.ready ++ [s.compMsg r code false 0 false] ∧ t.home = s.home ∧ t.arr = s.arr) ∧
    (q.bad = false → s.decodeCheck r = none →
      (let r' := { r with since := s.ring.powcyc }
       Leaves (.requestDecode x 0) s fun t => t.port.ready = s.port.ready ∧ t.arr = s.arr ∧
         (r.opc.toNat ≤ 9 → t.home = { s.home with q := s.home.q ++ [r'] } ∧ t.pin.q = s.pin.q) ∧
         (r.opc = 10 → t.home = { s.home with scanQ := s.home.scanQ ++ [r'] } ∧ t.pin.q = s.pin.q) ∧
         (r.opc = 11 → t.home = { s.home with invQ := s.home.invQ ++ [r'] } ∧ t.pin.q = s.pin.q) ∧
         (r.opc = 12 → t.home = { s.home with digQ := s.home.digQ ++ [r'] } ∧ t.pin.q = s.pin.q) ∧
         ((r.opc = 13 ∨ r.opc = 14) → t.home = s.home ∧ t.pin.q = s.pin.q ++ [r'])))) ∧
  (∀ (x : Src) (i : Nat) (q : QFlit) (s : State), s.coreUp = true → s.chk.upsets = [] → s.nextPay x = some (i, q) → (∀ e ∈ s.home.ht, e.2.st ≠ .wb) →
    (let p : PayFlit := ⟨flitFidx q.f, q.f.extractLsb' 128 512, bit q.f 64, flitDkind q.f, q.bad⟩
     let mine (r : Req) : Bool := r.name = flitName q.f && (r.opc = 4 || r.opc = 6)
     ((∀ r ∈ s.home.q, mine r = false) → Leaves (.payloadArrival x) s fun t =>
       (t.rx x).dat = (s.rx x).dat.eraseIdx i ∧ t.home = s.home ∧ (t.rx x).pay = addPay (s.rx x).pay (flitName q.f) p) ∧
     (∀ r, s.home.q.find? mine = some r → s.nothingWaits → s.deadReq r.name = false → (p.bad || p.dkind != dkindOf r.opc) = true →
       Leaves (.payloadArrival x) s fun t =>
         t.port.ready = s.port.ready ++ [s.compMsg r 3 false 0 false] ∧ t.home.q = s.home.q.erase r ∧ t.home.ht = s.home.ht ∧
         t.arr = s.arr))) ∧
  (∀ (x : Src) (i : Nat) (r : Req) (s : State), s.ctl.st = .running → s.nothingWaits → s.payWaiter x = some (i, r) →
    Leaves (.payloadTimeout x) s fun t =>
      t.port.ready = s.port.ready ++ [s.compMsg r 9 true 0 false] ∧ t.home.toerr = setBit s.home.toerr 0 ∧ t.home.q = s.home.q ∧
      t.arr = s.arr) ∧
  (∀ (x : Src) (s : State), s.ctl.st ≠ .running → Carries (.payloadTimeout x) s s)

/-! ### The home engine (07, 08) -/

/-- A line request takes its turn (R27, R32, R219, R385). What the bank serves before it goes on first; then a request that none of those the
bank may serve goes before, when it is the oldest of its line, of the command's kind, and its line is free, is served by its opcode's rules,
and what waited for the bank goes on. A request of an agent declared dead is discarded with COH_TOERR.DEADREQ and no answer (R251). A line that
another cluster holds is snooped first, with the entry open and the snoop filter as it was: a READ_SHARED or READ_ONCE of an owned line sends
SNP_SHARED to the owner, and the other requests send SNP_UNIQUE or SNP_INVALIDATE to every die that is present, as the table of R238 says.
Which requests are a bank's candidates, that a command's bank accesses take no time, and how recalls rank, are the model's choices (logs 67,
70 and 82). -/
def Obligations.RequestsTakeTheirTurn : Prop :=
  (∀ (b : Nat) (r : Req) (s : State), s.bankChoice b = some r →
    r ∈ s.bankCands b ∧ ∀ q ∈ s.bankCands b, s.beats q.cls q.since r.cls r.since = false) ∧
  (∀ (l : LineId) (c : Chk) (r : Req) (s : State), s.starts →
    (let turn (p : Req → Bool) : Prop := s.wakeBank.turnFor l p = some r
     let served : State := (s.wakeBank.turn r c).wakeBank.wakeRoom
     (turn (fun r => r.opc = 0) → Carries (.readShared l c) s served) ∧
     (turn (fun r => r.opc = 1) → Carries (.readUnique l c) s served) ∧
     (turn (fun r => r.opc = 2) → Carries (.readOnce l c) s served) ∧
     (turn (fun r => r.opc = 3) → Carries (.cleanUnique l c) s served) ∧
     (turn (fun r => r.opc = 4) → s.transient l = false → Carries (.writeBack l c) s served) ∧
     (turn (fun r => r.opc = 5) → s.transient l = false → Carries (.evictClean l c) s served) ∧
     (turn (fun r => r.opc = 6 && !s.isMove r && (!r.final || (s.released r).isSome)) → Carries (.writeUnique l c) s served) ∧
     (turn (fun r => s.isMove r) → Carries (.moveReceive l) s (s.wakeBank.turn r .ok).wakeBank.wakeRoom) ∧
     (turn (fun r => r.final && (s.released r).isNone && !s.isMove r) → Carries (.finalWrite l) s (s.wakeBank.turn r .ok).wakeBank.wakeRoom) ∧
     (turn (fun r => r.opc = 7) → Carries (.zeroLine l c) s served) ∧
     (turn (fun r => r.opc = 8) → Carries (.atomic l c) s served) ∧
     (turn (fun r => r.opc = 9) → Carries (.reduce l c) s served) ∧
     (s.deadReq r.name = true → s.transient r.line = false → c.more = [] →
       (s.turn r c).home = { s.home with q := s.home.q.erase r, toerr := setBit s.home.toerr 3 } ∧
       (s.turn r c).port.ready = s.port.ready ∧ (s.turn r c).arr = s.arr))) ∧
  (∀ (l : LineId) (r : Req) (a : Id12) (s : State), s.undisturbed l r → r.agent = some a → s.answerRoom →
    (let cmd : Instr := match r.opc.toNat with
       | 0 => .readShared l .ok
       | 1 => .readUnique l .ok
       | 2 => .readOnce l .ok
       | 3 => .cleanUnique l .ok
       | 6 => .writeUnique l .ok
       | 7 => .zeroLine l .ok
       | 8 => .atomic l .ok
       | _ => .reduce l .ok
     let owner := (s.ownerOf l).any (· ≠ a)
     let opens (t : State) (h : Ht) : Prop :=
       t.home.ht = [(0, h)] ∧ h.line = l ∧ h.why = .req r ∧ h.own = s.ownerOf l ∧ h.expect = owner ∧ h.ans = none ∧ h.sw = false ∧
       t.home.sf = s.home.sf ∧ t.home.q = s.home.q.erase r
     (∀ o : Id12, (r.opc = 0 ∨ r.opc = 2) → s.ownerOf l = some o → o ≠ a → s.isDead o = false →
       (r.space = true → r.opc = 2 ∨ (s.find l).isSome = true) → Leaves cmd s fun t =>
         (let fwd := !r.homeCurrent
          (∃ h, opens t h ∧ h.st = .snpS ∧ h.sop = snpShared ∧ h.fwd = fwd ∧ h.sweep = 0 ∧ h.timer = true) ∧
          t.snoops 0 l snpShared fwd false false o (if fwd then r.name else ⟨true, s.ring.tieSlice, 0⟩))) ∧
     (∀ (k : Nat) (x : Sf), s.sfFind l = some (k, x) → x.pdv ≠ 0 →
       (r.opc = 1 ∨ r.opc = 3 ∨ (r.opc = 6 ∧ r.ext = false) ∨ r.opc = 7 ∨ ((r.opc = 8 ∨ r.opc = 9) ∧ s.chapterCheck r = none)) →
       (r.opc = 1 → r.space = true → (s.find l).isSome = true) → Leaves cmd s fun t =>
         (let unique := r.opc = 1 ∨ (owner = true ∧ (r.opc = 3 ∨ r.opc = 8 ∨ r.opc = 9 ∨ r.partial_ = true))
          let sop := if unique then snpUnique else snpInvalidate
          let fwd := owner && decide (r.opc = 1 ∨ r.opc = 3)
          let onto : TxName := if fwd = true ∨ r.opc = 3 then r.name else ⟨true, s.ring.tieSlice, 0⟩
          (∃ h, opens t h ∧ h.st = .snpU ∧ h.sop = sop ∧ h.fwd = fwd ∧ h.sweep = x.pdv ∧
            h.timer = (owner || clrBit x.pdv s.homeDie != 0)) ∧
          (bit x.pdv s.homeDie = true → t.snoops 0 l sop fwd false true 0 onto) ∧
          ∀ d < 16, d ≠ s.homeDie → bit x.pdv d = true → t.snoops 0 l sop fwd true false (BitVec.ofNat 12 (d * 256)) onto))))

/-- Requests that need no snoop (R224, R238, R249, R283, R316). A WRITE_BACK or EVICT_CLEAN from another than OWN is answered COMP with GRANT I,
and changes no line and no snoop-filter entry; an EVICT_CLEAN from OWN clears OV; a READ_ONCE of an absent memory-space line that no
cluster holds opens a miss register of the line's bank and an entry in HT_MEM. A read of a line the home holds, which no other agent owns, is
answered with its data, poison and crust and the grant of R238, and the grant is recorded; a CLEAN_UNIQUE of a line no cluster holds is granted
M; a whole or partial write or a ZERO_LINE of a resident line that admits it is placed and answered; an ATOMIC or REDUCE of a line in the line
buffer enters HT_KNEAD; a final write is held, or answered ERR_LANDING when landing is off or its group has one; a move into a free buffer frame
is placed, counted and answered. That an entry takes the lowest free index, and a miss register too, are the model's choices (logs 76 and 78). -/
def Obligations.UncontendedRequests : Prop :=
  (∀ (l : LineId) (r : Req) (s : State), s.starts → s.nothingWaits → s.arr.struck = [] → s.oldest l = some r → s.lineFree r = true →
    s.bankChoice (s.bankFor r) = some r → s.retryFirst (s.bankFor r) r.cls r.since = false → s.deadReq r.name = false →
    (r.space = true → s.drained = true ∨ (s.windowOf r.line).isSome = true) →
    (r.opc = 4 → r.ext = false → s.fromOwner r = false → Leaves (.writeBack l .ok) s fun t =>
      t.port.ready = s.port.ready ++ [s.compMsg r 0 false 0 true] ∧ t.home = { s.home with q := s.home.q.erase r } ∧ t.arr = s.arr ∧
      t.mp = s.mp) ∧
    (r.opc = 5 → r.ext = false → s.fromOwner r = false → Leaves (.evictClean l .ok) s fun t =>
      t.port.ready = s.port.ready ++ [s.compMsg r 0 false 0 true] ∧ t.home = { s.home with q := s.home.q.erase r } ∧ t.arr = s.arr ∧
      t.mp = s.mp) ∧
    (r.opc = 5 → s.fromOwner r = true → r.space = false → s.leaves r.line = false → Leaves (.evictClean l .ok) s fun t =>
      t.home.sf = (s.sfDisown r.line).home.sf ∧ t.home.ht = s.home.ht ∧ t.home.q = s.home.q.erase r ∧ t.mp = s.mp) ∧
    (r.opc = 2 → r.space = false → s.untracked r.line = true → s.find r.line = none → s.ring.mpUp = true → s.home.ht = [] →
      (∃ i < 16, tabGet s.mp.miss (16 * s.bankOf r.line + i) = none) → Leaves (.readOnce l .ok) s fun t =>
        (∃ (k : Nat) (m : Miss), k / 16 = s.bankOf r.line ∧ tabGet s.mp.miss k = none ∧ tabGet t.mp.miss k = some m ∧
          m.line = r.line ∧ m.st = .alloc ∧ m.ent = 0 ∧ m.cls = r.cls) ∧
        (∃ h : Ht, t.home.ht = [(0, h)] ∧ h.line = r.line ∧ h.st = .mem ∧ h.why = .req r) ∧ t.home.q = s.home.q.erase r ∧
        t.port.ready = s.port.ready ∧ t.arr = s.arr)) ∧
  (∀ (l : LineId) (r : Req) (a : Id12) (s : State), s.undisturbed l r → r.agent = some a →
    (let owner := (s.ownerOf l).any (· ≠ a)
     let room := (s.sfFind l).isSome = true ∨ (s.sfFree (sfSet l)).isSome = true
     let served (t : State) : Prop := t.home.ht = [] ∧ t.home.q = s.home.q.erase r
     let pay := payLine (s.payload r)
     (∀ (k i : Nat) (f : Frame), s.find l = some (k, i) → s.frame k = some f → room →
       (let mt := (nth f.slots i .empty).mt
        let read (t : State) (grant : Nat) : Prop := served t ∧ t.completes r 1 0 mt.psn grant 2 ∧ t.sendsLine r (f.line i) mt.psn mt.crust
        (r.opc = 0 → owner = false → (let grant := if s.untracked l = true then 2 else 1
          Leaves (.readShared l .ok) s fun t => read t grant ∧ t.records l a (decide (grant = 2)))) ∧
        (r.opc = 1 → s.untracked l = true → Leaves (.readUnique l .ok) s fun t => read t 2 ∧ t.records l a true) ∧
        (r.opc = 2 → owner = false → Leaves (.readOnce l .ok) s fun t => read t 0))) ∧
     (r.opc = 3 → s.untracked l = true → room → Leaves (.cleanUnique l .ok) s fun t =>
       served t ∧ t.completes r 0 0 false 3 0 ∧ t.records l a true) ∧
     (∀ (k i : Nat) (f : Frame), s.find l = some (k, i) → s.frame k = some f → s.sfFind l = none →
       (r.opc = 7 → f.fmt.admits (fitOf 0) = true → Leaves (.zeroLine l .ok) s fun t =>
         served t ∧ t.completes r 0 0 false 0 0 ∧ t.holds k i f l 0 false ∧ t.home.sf = s.home.sf) ∧
       (r.opc = 6 → r.ext = false → s.payReady r = true → payBad r (s.payload r) = false →
         (let d := if r.mask = BitVec.allOnes 128 then pay else mergeMask (f.line i) pay r.mask
          let pois := payPois (s.payload r) || (decide (r.mask ≠ BitVec.allOnes 128) && (nth f.slots i .empty).mt.psn)
          (r.crv = true → crust l d = r.crust) → f.fmt.admits (fitOf d) = true → Leaves (.writeUnique l .ok) s fun t =>
            served t ∧ t.completes r 0 0 false 0 0 ∧ t.holds k i f l d pois ∧ t.home.sf = s.home.sf))) ∧
     ((r.opc = 8 ∨ r.opc = 9) → s.untracked l = true → s.chapterCheck r = none → (s.lbFind l).isSome = true → r.op ≠ 0x1A → r.op ≠ 0x1B →
       Leaves (if r.opc = 8 then .atomic l .ok else .reduce l .ok) s fun t =>
         t.home.q = s.home.q.erase r ∧ ∃ h, t.home.ht = [(0, h)] ∧ h.line = l ∧ h.why = .req r ∧ h.st = .knead ∧ h.lbw = false) ∧
     (r.final = true → s.released r = none → s.isMove r = false → s.payReady r = true → payBad r (s.payload r) = false → r.crv = false →
       tabSorted s.land.tab = true →
       (let g := r.lgrp.toNat
        (bit s.land.ltLo 0 = false → Leaves (.finalWrite l) s fun t =>
          served t ∧ t.completes r 0 8 false 0 0 ∧ bit t.land.err 2 = true ∧ t.landAt g = s.landAt g) ∧
        (bit s.land.ltLo 0 = true → (s.landAt g).held ≠ none → Leaves (.finalWrite l) s fun t =>
          served t ∧ t.completes r 0 8 false 0 0 ∧ bit t.land.err 1 = true ∧ (t.landAt g).held = (s.landAt g).held) ∧
        (bit s.land.ltLo 0 = true → (s.landAt g).held = none → Leaves (.finalWrite l) s fun t =>
          served t ∧ (t.landAt g).held = some ⟨r, pay, payPois (s.payload r)⟩))))) ∧
  (∀ (l : LineId) (r : Req) (k : Nat) (s : State), s.undisturbed l r → s.released r = none → s.isMove r = true → l.space = true → s.untracked l = true →
    s.payReady r = true → payBad r (s.payload r) = false → r.mask = BitVec.allOnes 128 → (r.crv = true → crust l (payLine (s.payload r)) = r.crust) →
    s.findIn (s.bankFor r) l = none → (∀ c, s.pinClass l = some c → s.use c < s.quota c) →
    s.freeFrame .buffer (s.bankFor r) (setOf l) = some k → Leaves (.moveReceive l) s fun t =>
      t.home.ht = [] ∧ t.home.q = s.home.q.erase r ∧ t.completes r 0 0 false 0 0 ∧ t.pin.rcvd = s.pin.rcvd + 1 ∧
      t.holds k 0 (Frame.fresh l .raw true) l (payLine (s.payload r)) (payPois (s.payload r)))

/-- Snoop answers (R59, R224, R226, R238, R242, R247, R252): the response at the head of its queue is taken under its code; one that names no open
entry is dropped as STRAY, one that its entry does not expect from that agent as OWNMIS, and the slice keeps what it holds, the data flits
under the snoop's name among it. The owner's answer that an entry waits for ends the wait once the sweeps are complete: after a forward the
request is answered without data, after SNP_RSP_S from the home copy, and after data sent to the home that data is placed and answered with.
OV is cleared but for SNP_RSP_O_FWD, and the grant of R238 is recorded; SNP_RSP_I to a SNP_SHARED has the entry wait for the eviction that
crosses it, and that of a back-invalidation frees its snoop-filter entry. -/
def Obligations.SnoopAnswers : Prop :=
  ∀ (x : Src) (f : Flit) (s : State), s.starts →
    (let taken (code : BitVec 5) : Prop := s.rspAt (s.answerReady code) = some (x, f)
     (taken 0x08 → Carries .snpRspI s (s.answerIn x f 0x08)) ∧ (taken 0x09 → Carries .snpRspS s (s.answerIn x f 0x09)) ∧
     (taken 0x0A → Carries .snpRspSFwd s (s.answerIn x f 0x0A)) ∧ (taken 0x0B → Carries .snpRspOFwd s (s.answerIn x f 0x0B)) ∧
     (taken 0x0C → Carries .snpRspIFwd s (s.answerIn x f 0x0C)) ∧ (taken 0x0D → Carries .snpRspIFwdD s (s.answerIn x f 0x0D)) ∧
     (taken 0x0E → Carries .snpRspSData s (s.answerIn x f 0x0E)) ∧ (taken 0x0F → Carries .snpRspIData s (s.answerIn x f 0x0F)) ∧
     (∀ code : BitVec 5, s.deadReq (flitName f) = false → s.nothingWaits →
       (let t := s.answerIn x f code
        (tabGet s.home.ht (flitName f).txn.toNat = none →
          bit t.home.err 0 = true ∧ t.home.sf = s.home.sf ∧ t.home.ht = s.home.ht ∧ t.arr = s.arr ∧ t.port.ready = s.port.ready ∧
          t.port.rx.dat = s.port.rx.dat) ∧
        (∀ h, tabGet s.home.ht (flitName f).txn.toNat = some h → (h.own ≠ some (flitName f).src ∨ accepts h code = false) →
          bit t.home.err 2 = true ∧ t.home.sf = s.home.sf ∧ t.home.ht = s.home.ht ∧ t.arr = s.arr ∧ t.port.ready = s.port.ready ∧
          t.port.rx.dat = s.port.rx.dat)))) ∧
    (∀ (e : BitVec 9) (h : Ht) (o : Id12), flitName f = ⟨false, o, e.setWidth 12⟩ →
      (let head (code : BitVec 5) : Prop := s.rspAt (fun g => rspType g = code) = some (x, f)
       let l := h.line
       (∀ (r : Req) (a : Id12) (k : Nat) (y : Sf), s.awaitsOne e h r a o → s.sfFind l = some (k, y) → y.pdv ≠ 0 →
         (let grant := if r.opc = 2 then 0 else 1
          let shared := h.st = .snpS ∧ (r.opc = 0 ∨ r.opc = 2) ∧ h.sop = snpShared ∧ h.sweep = 0 ∧ h.swept = 0
          let unique := h.st = .snpU ∧ r.opc = 1 ∧ h.sop = snpUnique ∧ h.fwd = true
          let closes (t : State) : Prop := t.home.ht = [] ∧ t.home.q = []
          let data (t : State) (w : Line) (psn : Bool) (c : Word) (grant : Nat) : Prop :=
            closes t ∧ t.completes r 1 0 psn grant 2 ∧ t.sendsLine r w psn c ∧ (grant ≠ 0 → t.records l a (decide (grant = 3)))
          (shared → head 0x0A → Leaves .snpRspSFwd s fun t =>
            closes t ∧ t.completes r 2 0 false grant 0 ∧ t.ownerOf l = none ∧ (grant = 1 → t.records l a false)) ∧
          (shared → head 0x0B → Leaves .snpRspOFwd s fun t =>
            closes t ∧ t.completes r 2 0 false grant 0 ∧ t.ownerOf l = some o ∧ (grant = 1 → t.records l a false)) ∧
          (shared → head 0x08 → Leaves .snpRspI s fun t =>
            (∃ h', t.home.ht = [(e.toNat, h')] ∧ h'.line = l ∧ h'.cross = true ∧ h'.ans = none) ∧ t.ownerOf l = none ∧
            t.port.ready = s.port.ready) ∧
          (unique → h.sweep = 0 → head 0x0C → Leaves .snpRspIFwd s fun t =>
            closes t ∧ t.completes r 2 0 false 2 0 ∧ t.records l a true) ∧
          (unique → h.sweep = 0 → head 0x0D → Leaves .snpRspIFwdD s fun t =>
            closes t ∧ t.completes r 2 0 false 3 0 ∧ t.records l a true) ∧
          (unique → h.sweep ≠ 0 → head 0x0C → Leaves .snpRspIFwd s fun t =>
            (∃ h', t.home.ht = [(e.toNat, h')] ∧ h'.line = l ∧ h'.ans = some 0x0C ∧ h'.sweep = h.sweep) ∧ t.ownerOf l = none ∧
            t.port.ready = s.port.ready) ∧
          (∀ (p i : Nat) (fr : Frame), s.find l = some (p, i) → s.frame p = some fr →
            (let mt := (nth fr.slots i .empty).mt
             (shared → head 0x09 → Leaves .snpRspS s fun t => data t (fr.line i) mt.psn mt.crust grant ∧ t.ownerOf l = none) ∧
             (∀ (q0 q1 : QFlit) (d : Line) (p0 crv : Bool) (c : Word), s.drained = false → s.lbFind l = none → fr.fmt = .raw →
               s.datPart (s.snoopName e.toNat) 0 = some q0 → s.datPart (s.snoopName e.toNat) 1 = some q1 →
               lineFrom q0 q1 = (d, (p0, (crv, c))) → (crv = true → c = crust l d) →
               (let psn := p0 || mt.psn
                (shared → head 0x0E → Leaves .snpRspSData s fun t =>
                  data t d psn (crust l d) grant ∧ t.holds p i fr l d psn ∧ t.ownerOf l = none) ∧
                (unique → h.sweep = 0 → head 0x0F → Leaves .snpRspIData s fun t =>
                  data t d psn (crust l d) 3 ∧ t.holds p i fr l d psn))))))) ∧
       (∀ (key : Nat) (c : BitVec 4), s.awaitsOwner e h o → h.st = .binv → h.why = .binv key c → h.sweep = 0 → head 0x08 →
         Leaves .snpRspI s fun t => t.home.ht = [] ∧ tabGet t.home.sf key = none)))

/-- Sweeps, resends, timeouts and the reclaim walk (R229, R248, R253 to R256). A timeout for missing payload answers the request ERR_TIMEOUT and
names its agent in COH_TOLAST; one for a missing owner poisons the line, clears OV and answers ERR_TIMEOUT with POIS 1, all counted and
flagged; one for a missing SNP_SWEPT answers so and keeps the snoop-filter entry. A visit of the reclaim walk that finds an owner declared
dead opens a reclaim and sweeps the present dies. How the zeros of a timeout are placed, which agent COH_TOLAST names, and what waits for a
timeout, are the model's choices (logs 19, 48 and 81). -/
def Obligations.SweepsAndTimers : Prop :=
  ∀ s : State, s.starts →
    (∀ (x : Src) (f : Flit) (h : Ht), s.rspAt (fun f => rspType f = 0x10) = some (x, f) →
      tabGet s.home.ht (flitName f).txn.toNat = some h → (flitName f).sty = true → h.st = .snpU → h.sw = false →
      bit (s.relayed h) (rspDie f) = true →
      Carries .snpSwept s (((s.popRsp x).ev 67).advance (flitName f).txn.toNat
        { h with sweep := clrBit h.sweep (rspDie f), swept := setBit h.swept (rspDie f) } .ok)) ∧
    (∀ (e : BitVec 9) (h : Ht), tabGet s.home.ht e.toNat = some h →
      (s.resendable h = true → Leaves (.snoopResend e) s fun t =>
        (∃ h', tabGet t.home.ht e.toNat = some h' ∧ h' = { h with sweep := setBit 0 (dieOf (h.own.getD 0)) }) ∧
        t.port.ready.length = s.port.ready.length + 1 ∧ t.home.sf = s.home.sf ∧ t.arr = s.arr) ∧
      (s.timed h = true → Carries (.deadAgentTimeout e) s (s.expire e.toNat h))) ∧
    (∀ (e : BitVec 9) (h : Ht) (r : Req), s.alone e h → h.why = .req r → r.line = h.line → s.timed h = true →
      (let late (t : State) : Prop := t.home.ht = [] ∧ t.completes r 0 9 true 0 0 ∧ bit t.home.toerr 0 = true
       (h.st = .wb → Leaves (.deadAgentTimeout e) s fun t =>
         late t ∧ t.home.tolast = pack 18 [(0, r.name.src.toNat), (12, 2)] ∧ t.home.sf = s.home.sf ∧ t.arr = s.arr) ∧
       (∀ (a o : Id12) (k i j : Nat) (f : Frame) (y : Sf), s.awaitsOne e h r a o → s.sfFind h.line = some (j, y) → y.pdv ≠ 0 → (h.st = .snpS ∨ h.st = .snpU) → h.sop ≠ snpInvalidate →
         h.sweep = 0 → s.drained = false → s.find h.line = some (k, i) → s.frame k = some f → Leaves (.deadAgentTimeout e) s fun t =>
           late t ∧ t.home.tolast = pack 18 [(0, o.toNat)] ∧ bit t.home.toerr 2 = true ∧
           t.home.poiscnt = satAdd s.home.poiscnt 1 ∧ t.ownerOf h.line = none ∧ t.holds k i f h.line 0 true) ∧
       (h.st = .snpU → h.expect = false → s.relayed h ≠ 0 → Leaves (.deadAgentTimeout e) s fun t =>
         late t ∧ bit t.home.toerr 1 = true ∧ t.home.sf = s.home.sf ∧ t.arr = s.arr))) ∧
    (∀ (k : Nat) (y : Sf), s.calm → s.answerRoom → s.ctl.st = .running → s.home.walk = true → s.opensClosed = true → s.home.ht = [] →
      s.home.walkSet < 8191 → s.deadKeys s.home.walkSet = [k] → tabGet s.home.sf k = some y → s.sfFind (y.line k) = some (k, y) →
      y.pdv ≠ 0 → (∃ d ∈ s.home.dead, d.valid = true ∧ d.done = false ∧ d.left > 1) → Leaves .reclaimWalkVisit s fun t =>
        t.home.walkSet = s.home.walkSet + 1 ∧ t.home.sf = s.home.sf ∧
        ∃ h, t.home.ht = [(0, h)] ∧ h.line = y.line k ∧ h.st = .reclaim ∧ h.why = .reclaim y.own ∧ h.sop = snpInvalidate ∧
          h.sweep = y.pdv ∧ h.expect = false) ∧
    (s.ctl.st = .running → s.home.walk = false → s.walkDue = true → s.opensClosed = true →
      Carries .reclaimWalkStart s { s with home.walk := true }) ∧
    (s.ctl.st = .running → s.home.walk = true → s.opensClosed = true → s.home.ht = [] → s.home.walkSet < 8191 →
      s.deadKeys s.home.walkSet = [] → (∃ d ∈ s.home.dead, d.valid = true ∧ d.done = false ∧ d.left > 1) →
      Leaves .reclaimWalkVisit s fun t => t.home.walkSet = s.home.walkSet + 1 ∧ t.home.walk = true ∧ t.home.sf = s.home.sf)

/-! ### The memory port (02, 06, 14) -/

/-- Reads (R68, R119, R202 to R205, R403, R441): the read the arbiters pick enters the command FIFO and its register is ISSUED; a
transfer takes the oldest command, after its stall cycles; a beat that fails its own parity, one with RD_CRV 1 whose crust is wrong, and
a timed-out read are reissued at most 4 times, the fifth failure setting CHK_ERR.MPRD and filling zeros with poison; a beat whose TAG
word fails parity sets CHK_ERR.MPTAG and counts; a good beat fills its register and its entry goes on, as do entries that waited. While
starts are stopped a beat waits, which the model has it do in the read-data FIFO and behind it (log 93); that CHK_PARCNT.REPLAY counts a
reissue is the model's choice of log 51, the number of stall cycles is left free (log 67). -/
def Obligations.MemoryReads : Prop :=
  (∀ (tag : Byte) (m : Miss) (res : Bool) (s : State), s.pick = .read tag.toNat m res → Carries (.missIssue tag) s (s.issueRead tag.toNat m res)) ∧
  (∀ (c : MCmd) (rest : List MCmd) (s : State), s.ring.mpUp = true → s.mp.cmdFifo = c :: rest →
    (c.write = false → Carries .memCmdTransfer s { s.stalled 20 with mp.cmdFifo := rest }) ∧
    (c.write = true → Carries .memCmdTransfer s
      ({ s.stalled 20 with mp.cmdFifo := rest }.modWr c.tag.toNat fun w => { w with st := .sent }))) ∧
  (∀ (tag : Byte) (m : Miss) (s : State), s.rdRdy = true → s.awaits tag.toNat = true → tabGet s.mp.miss tag.toNat = some m →
    s.mp.flushRd = [] →
    (let again (c : Instr) : Prop :=
       (m.reissue < 4 → Leaves c s fun t =>
         tabGet t.mp.miss tag.toNat = some { m with st := .alloc, reissue := m.reissue + 1, ord := s.mp.ord } ∧
         t.chk.replay = satAdd s.chk.replay 1 ∧ t.home = s.home ∧ t.arr = s.arr) ∧
       (m.reissue ≥ 4 → ∃ u : State, bit u.chk.err 1 = true ∧ u.home = s.home ∧ u.arr = s.arr ∧ u.mp = s.mp ∧
         Carries c s (u.fill tag.toNat m 0 true))
     (∀ (d : Line) (pois crv : Bool) (c : Word) (par : BitVec 34),
       (let x : RdBeat := ⟨tag, d, pois, crv, c, par⟩
        let wrong := crv && crust m.line d != c
        let cmd : Instr := .memReadData tag d pois crv c par
        (s.starts → s.chk.upsets = [] → x.bad = 0 → wrong = false →
          Carries cmd s ((((s.ev 18).charge 10 m.cls 1).evk 26 0 (num crv)).fill tag.toNat m d pois)) ∧
        (s.starts → s.chk.upsets = [] → bit x.bad 33 = false → (x.bad ≠ 0 ∨ wrong = true) → again cmd) ∧
        (bit x.bad 33 = true → Leaves cmd s fun t =>
          t.chk.err = (if s.coreUp then setBit s.chk.err 3 else s.chk.err) ∧ t.mp = { s.mp with badTags := s.mp.badTags + 1 } ∧
          t.home = s.home ∧ t.arr = s.arr) ∧
        (¬s.starts → bit x.bad 33 = false →
          (s.mp.rdFifo.length < 8 → Carries cmd s { s.ev 18 with mp.rdFifo := s.mp.rdFifo ++ [x] }) ∧
          (s.mp.rdFifo.length ≥ 8 → Carries cmd s
            { s.ev 18 with mp.rdWait := s.mp.rdWait ++ s.mp.rdFifo.take 1, mp.rdFifo := s.mp.rdFifo.drop 1 ++ [x] })))) ∧
     again (.memReadTimeout tag))) ∧
  (∀ (e : BitVec 9) (h : Ht) (s : State), s.starts → tabGet s.home.ht e.toNat = some h →
    (s.retryable h = true → s.bankFree (s.bankOf h.line) (s.htRank h).1 (s.htRank h).2 = true →
      Carries (.missRegisterRetry e) s ((s.lookup h.line (s.htClass h)).advance e.toNat h .ok)) ∧
    (s.resumable h = true → Carries (.placementResume e) s (s.advance e.toNat h .ok)))

/-- Writes (R69, R404): a write's data follows its command; a good completion frees its tag; an error completion has it issued again, at
most 4 times, after which it is released with MP_WR_FAIL; the completion that waited for it is sent when it is released, by the write
itself or by the entry that stays open for it, whose requester sees POIS 1 where the write failed for good; a completion that fails
parity sets CHK_ERR.MPTAG and is counted; a write whose completion does not come is issued again. -/
def Obligations.MemoryWrites : Prop :=
  ∀ (tag : BitVec 6) (w : Wr) (s : State), s.ring.mpUp = true → s.wrOf tag.toNat = some w → s.mp.flushWr = [] → s.mp.flushWd = [] →
    (let par (err : Bool) : Bool := parity (pack 7 [(0, num err), (1, tag.toNat)])
     (∀ rest, s.mp.wdFifo = tag.toNat :: rest → w.st = .sent → Leaves .memWriteDataTransfer s fun t =>
       t.mp.wdFifo = rest ∧ t.wrOf tag.toNat = some { w with wdSent := true } ∧ t.home = s.home ∧ t.arr = s.arr) ∧
     (w.st = .sent → w.wdSent = true →
       Carries (.memWriteCompletion tag false (par false)) s ((s.ev 19).release w false) ∧
       ((∀ e ∈ s.home.ht, e.2.tw = false) → ∀ v ∈ ((s.ev 19).release w false).mp.hold, v.tag ≠ w.tag) ∧
       (w.errs < 4 → Carries (.memWriteCompletion tag true (par true)) s ((s.ev 19).writeAgain w (w.errs + 1))) ∧
       (w.errs ≥ 4 → Leaves (.memWriteCompletion tag true (par true)) s fun t =>
         bit t.chk.err 2 = true ∧ ((∀ e ∈ s.home.ht, e.2.tw = false) → ∀ v ∈ t.mp.hold, v.tag ≠ w.tag)) ∧
       (∀ (err : Bool) (c : Comp), (err = true → w.errs ≥ 4) → c.data = none → c.rval = 0 →
         (let told (t : State) : Prop := t.completes c.r c.rtype.toNat c.rcode.toNat (c.pois || err) c.grant.toNat 0
          ((∀ e ∈ s.home.ht, e.2.tw = false) → w.comps = [c] → Leaves (.memWriteCompletion tag err (par err)) s told) ∧
          (∀ (i : Nat) (h : Ht), s.home.ht = [(i, h)] → h.tw = true → h.tags = [w.tag] → h.comps = [c] → h.wbad = false →
            h.passed = false → h.rclm = false → Leaves (.memWriteCompletion tag err (par err)) s fun t => told t ∧ t.home.ht = []))) ∧
       (∀ err, Carries (.memWriteCompletion tag err (!par err)) s
         { s with chk.err := if s.coreUp then setBit s.chk.err 3 else s.chk.err, mp.badTags := s.mp.badTags + 1 }) ∧
       Carries (.memWriteTimeout tag) s (s.writeAgain w w.errs)))

/-! ### Arrays, walks and pinning (06, 10, 14) -/

/-- Steps of the arrays (R207, R210 to R212, R306, R417): a corrected word is written back; a window of errors and one of thrashing end;
a scrub step that finds nothing, no word being struck, passes on; one that meets a struck data word of a valid slot counts it, records it
in ARR_CELAST and has it written back; a closing way evicts the frame of its next set, and is disabled after its last, at a further visit
(log 44). -/
def Obligations.ArraySteps : Prop :=
  (∀ (bank : BitVec 4) (p : Nat × Nat) (s : State), s.starts → (s.arr.rewrite.find? fun p => keyBank p.1 = bank.toNat) = some p →
    Carries (.correctedRewrite bank) s
      ((({ s with arr.rewrite := s.arr.rewrite.erase p }.start (keyBank p.1 / 4)).charge 2 s.iclass 1).evk 63 0 1)) ∧
  (∀ s : State, s.coreUp = true →
    (s.ring.powcyc.extractLsb' 0 30 = 0 → Carries .errorWindowEnd s
      { s with arr.ceCnt := [], chk.resWin := 0, chk.parWin := 0, chk.resRaised := false, chk.parRaised := false }) ∧
    (s.ring.powcyc.extractLsb' 0 20 = 0 → Carries .thrashWindowEnd s { s with arr.thrash := List.replicate 16 0 }) ∧
    (s.starts → s.scrubbing = true → s.chk.upsets = [] →
      (let on (t : State) : Prop :=
         t.chk.pos = (s.chk.pos + 1) % 12288 ∧ t.chk.pass = (if s.chk.pos = 12287 then s.chk.pass + 1 else s.chk.pass) ∧
         t.chk.sfPos = (s.chk.sfPos + 1) % 8192 ∧ t.chk.ftPos = (s.chk.ftPos + 1) % 512 ∧ t.chk.lbPos = (s.chk.lbPos + 1) % 48 ∧
         t.home = s.home ∧ t.knd = s.knd
       (s.arr.struck = [] → Leaves (.scrubStep []) s fun t => on t ∧ t.arr = s.arr ∧ t.chk.err = s.chk.err) ∧
       (∀ (b i j : Nat) (w : BitVec 4) (f : Frame), (let k := s.scrubKey b
         s.chk.pos < 12288 → b < 16 → bit s.ctl.insvc b = true → s.scrubSkips k = false → s.frame k = some f → f.fmt ≠ .rframe →
         s.setOfFrame k = none → s.arr.struck = [(k, (j, .ceData w))] → s.slotOfWord k w.toNat = some i →
         Leaves (.scrubStep []) s fun t => on t ∧ t.arr.struck = [] ∧ t.arr.frames = s.arr.frames ∧
           t.arr.rewrite = s.arr.rewrite ++ [(k, w.toNat)] ∧ t.chk.cecnt = satAdd s.chk.cecnt 1 ∧
           t.arr.celast = pack 32 [(0, keySet k), (10, keyWay k), (14, keyBank k), (31, 1)]))))) ∧
  (∀ (bank : BitVec 4) (c : Closing) (s : State), s.starts → s.coreUp = true → nth s.arr.closing bank.toNat none = some c →
    (let k := frameKey bank.toNat c.set c.way
     (c.set < 768 → s.eligible k true = true → s.evictNeeds k ≤ s.freeTags.length → tabSorted s.arr.frames = true →
       s.arr.struck = [] → Leaves (.wayCloseVisit bank) s fun t =>
         t.frame k = none ∧ nth t.arr.closing bank.toNat none = some { c with set := c.set + 1 } ∧ t.arr.waydis = s.arr.waydis) ∧
     (c.set ≥ 768 → (∀ w ∈ s.mp.hold, w.cause ≠ .wayClose bank.toNat) → s.arr.waydis.length = 16 → c.way < 16 →
       Leaves (.wayCloseVisit bank) s fun t =>
         nth t.arr.closing bank.toNat none = none ∧ bit (nth t.arr.waydis bank.toNat 0) c.way = true ∧
         t.arr.err = setBit s.arr.err 0 ∧ t.arr.frames = s.arr.frames)))

/-- PIN and UNPIN (R298, R300, R362): the rows of R298 in their order, and the cairns an UNPIN releases, while no demotion step waits
for a scan. A row that answers at once sends COMP with its code and moves nothing; with a step that waits, neither is served. That a
cairn takes the lowest free place of its table is the model's choice (log 55). -/
def Obligations.PinAndUnpin : Prop :=
  (∀ (r : Req) (s : State), s.coreUp = true → s.stepHeld = false → s.pinNext 13 = some r → s.deadReq r.name = false →
    (let same := s.pin.cairns.any fun p => p.2.base = r.line.ln && p.2.len = r.len && p.2.cls = r.cls
     let meets := s.pin.cairns.any fun p => p.2.overlaps r
     let answered (t : State) (code : BitVec 4) : Prop :=
       t.port.ready = s.port.ready ++ [s.compMsg r code false 0 false] ∧ t.pin.cairns = s.pin.cairns ∧ t.pin.q = s.pin.q.drop 1 ∧
       t.arr = s.arr
     ((r.space = true ∨ r.len = 0 ∨ same = true) → Leaves .pin s fun t => answered t 0 ∧ t.pin.err = s.pin.err) ∧
     (r.space = false → r.len ≠ 0 → same = false → meets = true → Leaves .pin s fun t =>
       answered t 6 ∧ t.pin.err = setBit s.pin.err 2) ∧
     (r.space = false → r.len ≠ 0 → same = false → meets = false →
       (tabFree s.pin.cairns 64 = none → Leaves .pin s fun t => answered t 6 ∧ t.pin.err = setBit s.pin.err 9) ∧
       (∀ i, tabFree s.pin.cairns 64 = some i → Leaves .pin s fun t =>
         t.pin.cairns = tabPut s.pin.cairns i { base := r.line.ln, len := r.len, cls := r.cls, seq := s.pin.seq, demoting := false } ∧
         t.pin.seq = s.pin.seq + 1 ∧ t.arr = s.arr)))) ∧
  (∀ (r : Req) (s : State), s.coreUp = true → s.stepHeld = false → s.pinNext 14 = some r → s.deadReq r.name = false →
    s.unpinHeld r = false →
    (let inside (c : Cairn) : Bool := decide (r.first ≤ c.base.toNat ∧ c.base.toNat + c.len.toNat ≤ r.past)
     ((r.space = true ∨ s.released300 r = []) → Leaves .unpin s fun t =>
       t.port.ready = s.port.ready ++ [s.compMsg r 0 false 0 false] ∧ t.pin.cairns = s.pin.cairns ∧ t.arr = s.arr) ∧
     (r.space = false → s.released300 r ≠ [] → tabSorted s.pin.cairns = true → Leaves .unpin s fun t =>
       t.pin.cairns = s.pin.cairns.filter (fun p => !inside p.2) ∧ t.arr = s.arr))) ∧
  (∀ s : State, s.stepHeld = true → Carries .pin s s ∧ Carries .unpin s s)

/-- The visits of the pin and unpin walks (R299, R300), the demotion steps (R304), INV_RANGE (R477) and DIGEST (R428, R429). A visit
that finds nothing passes on by one frame; one line of a pin walk moves to the lowest free cairn way of its set with its metadata, or
is counted as left; one of an unpin walk leaves its slot, and goes to memory where R194 writes it. A demotion step evicts the cairn's
frame, and the class's bit falls once it is within its quota. INV_RANGE and DIGEST start at the first line of each bank group; an
untracked line is passed, a tracked one recalled; a digest of a line joins the sum. That a DIGEST line outside every window sets NOWIN and
is left out, and that the quota is tested at each visit, are the model's choices (log 45), as is which lines a walk passes by because they
wait or have moved (log 55). -/
def Obligations.WalksAndRanges : Prop :=
  (∀ (bank : BitVec 4) (w : PinWalk) (s : State), s.starts → s.pin.walk = some w → nth w.pos bank.toNat 12288 < 12288 →
    (let k := w.next bank.toNat
     let on (w : PinWalk) : PinWalk := { w with pos := upd w.pos bank.toNat (· + 1) }
     let visit : Instr := if w.unpin then .unpinWalkVisit bank else .pinWalkVisit bank
     (∃ p ∈ (on w).pos, p < 12288) → s.arr.struck = [] → s.cfg.chk.level.toNat < 2 → tabSorted s.arr.frames = true →
     (s.walkLines w bank.toNat = [] → Carries visit s { s with pin.walk := some (on w) }) ∧
     (∀ (i : Nat) (l : LineId) (f : Frame), s.walkLines w bank.toNat = [(i, l)] → s.frame k = some f →
       (let m := (nth f.slots i .empty).mt
        let gone (t : State) : Prop := ∀ f', t.frame k = some f' → (nth f'.slots i .empty).v = false
        let full := s.use w.r.cls ≥ s.quota w.r.cls
        (w.unpin = false → s.movable k l = true →
          ((full ∨ s.freeFrame .cairn bank.toNat (setOf l) = none) → Leaves (.pinWalkVisit bank) s fun t =>
            t.pin.walk = some (on { w with left := w.left + 1, quota := w.quota || (decide full && w.row = 7) }) ∧ t.arr = s.arr ∧
            t.home = s.home ∧ t.mp = s.mp) ∧
          (∀ dest, ¬full → s.freeFrame .cairn bank.toNat (setOf l) = some dest → Leaves (.pinWalkVisit bank) s fun t =>
            t.frame dest = some ((Frame.fresh l .raw true).write 0 (lidxOf l) (f.line i) m) ∧ gone t ∧
            t.pin.walk = some (on w) ∧ t.home = s.home ∧ t.mp = s.mp)) ∧
        (w.unpin = true → s.leavable k l = true → s.evictNeeds k ≤ s.freeTags.length → Leaves (.unpinWalkVisit bank) s fun t =>
          gone t ∧ t.pin.walk = some (on w) ∧ t.home = s.home ∧
          (s.evictWrites k i f = true → ∃ v ∈ t.mp.hold, v.line = l ∧ v.data = f.line i ∧ v.pois = m.psn ∧ v.tag ∈ s.freeTags ∧
            v.cause = .unpin) ∧
          (s.evictWrites k i f = false → t.mp = s.mp)))))) ∧
  (∀ (c : BitVec 4) (s : State), s.starts → s.ctl.st = .running → bit s.pin.demote c.toNat = true →
    (s.demoted c = true → Carries (.demotionStep c) s { s with pin.demote := clrBit s.pin.demote c.toNat }) ∧
    (∀ (i k : Nat) (cn : Cairn) (rest : List (Nat × Cairn)), s.arr.struck = [] → s.demoted c = false → s.pinning c = (i, cn) :: rest →
      s.cairnFrame cn = some k → s.scanHolds cn = false → s.evictNeeds k ≤ s.freeTags.length →
      (∀ x ∈ s.linesAt k cn.covers, s.movable k x.2 = true) → tabSorted s.arr.frames = true →
      Leaves (.demotionStep c) s fun t =>
        t.frame k = none ∧ tabGet t.pin.cairns i = some { cn with demoting := true } ∧ bit t.pin.demote c.toNat = !t.demoted c ∧
        t.home = s.home)) ∧
  (∀ (r : Req) (rest : List Req) (s : State), s.coreUp = true → s.invsGoOn →
    (let starts := s.rangeStarts r
     let here := ∃ p ∈ starts, p < r.len.toNat
     (s.home.invQ = r :: rest → r.opc = 11 →
       (s.deadReq r.name = true → Leaves .invRange s fun t =>
         t.home = { s.home with invQ := rest, toerr := setBit s.home.toerr 3 } ∧ t.port.ready = s.port.ready) ∧
       (s.deadReq r.name = false → here → Carries .invRange s
         { s with home.invQ := rest, home.invs := s.home.invs ++ [⟨r, starts, false, false, [], false⟩] }) ∧
       (s.deadReq r.name = false → ¬here → (∀ e ∈ s.home.ht, e.2.why ≠ .inv r) → Leaves .invRange s fun t =>
         t.home = { s.home with invQ := rest } ∧ t.port.ready = s.port.ready ++ [s.compMsg r 0 false 0 false] ∧ t.arr = s.arr)) ∧
     (s.home.digQ = r :: rest → s.home.dig = none → r.opc = 12 →
       (s.deadReq r.name = true → Leaves .digest s fun t =>
         t.home = { s.home with digQ := rest, toerr := setBit s.home.toerr 3 } ∧ t.port.ready = s.port.ready) ∧
       (s.deadReq r.name = false → here → Leaves .digest s fun t =>
         t.home = { s.home with digQ := rest, dig := some ⟨r, starts, 0, false, false, []⟩ } ∧ t.port.ready = s.port.ready ∧
         t.arr = s.arr) ∧
       (s.deadReq r.name = false → ¬here → (∀ e ∈ s.home.ht, e.2.why ≠ .digest r) → Leaves .digest s fun t =>
         t.home = { s.home with digQ := rest } ∧ t.port.ready = s.port.ready ++ [s.compMsg r 0 false 0 false] ∧ t.arr = s.arr)))) ∧
  (∀ (i : Nat) (g : BitVec 2) (c : Chk) (j : InvJob) (s : State), s.starts → s.home.invs[i]? = some j → c.sf = .clean →
    (let o := nth j.next g.toNat j.r.len.toNat
     let l := j.r.lineAt o
     let next := s.rangeOn j.r g.toNat o j.next
     o < j.r.len.toNat → s.freeLine l = true → s.oldest l = none →
     (s.untracked l = true → s.invsGoOn → (∀ q ∈ s.home.invs, q.r = j.r → q = j) → (∃ p ∈ next, p < j.r.len.toNat) →
       Leaves (.invRangeLine i g c) s fun t =>
         t.home = { s.home with
           invs := s.home.invs.map fun q => if q.r = j.r then { j with next, nowin := j.nowin || s.outside l } else q } ∧
         t.port.ready = s.port.ready ∧ t.mp = s.mp) ∧
     (∀ (e k : Nat) (x : Sf), s.untracked l = false → s.sfFind l = some (k, x) → x.pdv ≠ 0 → s.invOpen j.r < 16 →
       s.home.ht.length < 512 → tabFree s.home.ht 512 = some e → s.nothingWaits → Leaves (.invRangeLine i g c) s fun t =>
         (∃ h, tabGet t.home.ht e = some h ∧ h.line = l ∧ h.st = .snpU ∧ h.why = .inv j.r ∧ h.sweep = x.pdv ∧
           h.sop = if (s.ownerOf l).any (fun a => j.r.agent != some a) then snpUnique else snpInvalidate) ∧
         t.home.sf = s.home.sf ∧ t.mp = s.mp))) ∧
  (∀ (g : BitVec 2) (j : DigJob) (s : State), s.starts → s.home.dig = some j → s.arr.struck = [] → s.cfg.chk.level.toNat < 2 →
    (let o := nth j.next g.toNat j.r.len.toNat
     let l := j.r.lineAt o
     let next := s.rangeOn j.r g.toNat o j.next
     o < j.r.len.toNat → s.freeLine l = true → s.home.ht.length < 512 → s.bankFree (s.bankOf l) j.r.cls j.r.since = true →
     s.ownerOf l = none → (∃ p ∈ next, p < j.r.len.toNat) →
     (∀ (k n : Nat) (f : Frame), s.find l = some (k, n) → s.frame k = some f → Leaves (.digestLineRead g .ok) s fun t =>
       t.home = { s.home with dig := some { j with
         next, sum := j.sum + lineDigest l (f.line n), pois := j.pois || (nth f.slots n .empty).mt.psn } } ∧
       t.port.ready = s.port.ready ∧ t.arr = s.arr) ∧
     (s.find l = none → l.space = true → s.outside l = false → Leaves (.digestLineRead g .ok) s fun t =>
       t.home = { s.home with dig := some { j with next, sum := j.sum + lineDigest l 0 } } ∧ t.port.ready = s.port.ready ∧
       t.arr = s.arr) ∧
     (s.find l = none → s.outside l = true → Leaves (.digestLineRead g .ok) s fun t =>
       t.home = { s.home with dig := some { j with next, nowin := true } } ∧ t.pin.err = setBit s.pin.err 3 ∧
       t.port.ready = s.port.ready ∧ t.arr = s.arr) ∧
     (∀ e : Nat, s.find l = none → l.space = false → s.ring.mpUp = true → tabFree s.home.ht 512 = some e →
       (∃ b < 16, tabGet s.mp.miss (16 * s.bankOf l + b) = none) → Leaves (.digestLineRead g .ok) s fun t =>
         t.home.dig = some { j with next } ∧
         (∃ h, tabGet t.home.ht e = some h ∧ h.line = l ∧ h.st = .mem ∧ h.why = .digest j.r) ∧
         (∃ (k : Nat) (m : Miss), k / 16 = s.bankOf l ∧ tabGet s.mp.miss k = none ∧ tabGet t.mp.miss k = some m ∧ m.line = l ∧
           m.st = .alloc ∧ m.ent = e) ∧ t.arr = s.arr)))

/-- The epoch walks and the moves (R59, R312 to R319): each visit passes on by one set or one frame; a move is sent once an RSP entry is
free for its completion, ends when its completion is OK, waits out ERR_NOTRUN, is sent again after ERR_CRUST while it has been sent
fewer than 4 times, and after ERR_HOME a buffer-space line is lost and a memory-space line is written to memory once a write tag is free.
That a send answered ERR_NOTRUN does not count, and that a line still refused with ERR_CRUST at its fourth send is lost, are the model's
choices (log 56). -/
def Obligations.EpochWalksAndMoves : Prop :=
  (∀ s : State, s.starts → s.ctl.busy = true →
    (s.pin.epSf < 8192 → s.sfLeaving s.pin.epSf = [] → s.recalls ≤ 16 → s.home.ht.length ≤ 512 →
      Carries .epochSfWalkVisit s { s with pin.epSf := s.pin.epSf + 1 }) ∧
    (s.pin.epSf < 8192 → s.walkRoom (s.sfLeaving s.pin.epSf) = true →
      Carries .epochSfWalkVisit s
        { ((s.sfLeaving s.pin.epSf).foldl State.epochPass s) with pin.epSf := s.pin.epSf + 1 }) ∧
    (∀ bank : BitVec 4, (let p := nth s.pin.epTag bank.toNat 12288
      let k := bank.toNat * 12288 + p
      let ls := (s.linesAt k fun l => s.changesHome l && s.oldBank l = bank.toNat).map fun x => x.2
      p < 12288 → s.openCount (fun h => h.st = .move) < 256 → s.walkRoom ls = true →
      (∀ l ∈ ls, s.transient l = true ∨ s.knOf l = false) →
      Carries (.epochTagWalkVisit bank) s { (s.tagVisit bank.toNat k) with pin.epTag := upd s.pin.epTag bank.toNat (· + 1) }))) ∧
  (∀ (e : BitVec 9) (h : Ht) (s : State), tabGet s.home.ht e.toNat = some h →
    (∀ sends r, s.starts → h.why = .move sends true r → h.timer = false → s.roomFor false = true →
      Carries (.moveSend e) s (s.moveOut e.toNat h sends r)) ∧
    (h.st = .move → h.timer = true → Carries (.moveResend e) s ((s.ev 102).keep e.toNat (some { h with timer := false })))) ∧
  (∀ (x : Src) (f : Flit) (h : Ht) (sends : Nat) (wait : Bool) (r : Req) (s : State), s.rspAt s.moveComp = some (x, f) →
    tabGet s.home.ht (flitName f).txn.toNat = some h → h.why = .move sends wait r →
    (let idx := (flitName f).txn.toNat
     let s' := s.popRsp x
     (rspCode f = 0 → Carries .moveComplete s (s'.moveEnd idx h).wakeRoom) ∧
     (rspCode f = 2 → Carries .moveComplete s
       (s'.keep idx (some { h with timer := true, why := .move (sends - 1) true r })).wakeRoom) ∧
     (rspCode f = 7 → sends < 4 → Carries .moveComplete s (s'.keep idx (some { h with why := .move sends true r })).wakeRoom) ∧
     (rspCode f = 7 → sends ≥ 4 → Carries .moveComplete s (s'.loseLine idx h 7).wakeRoom) ∧
     (rspCode f = 1 → h.line.space = true → Carries .moveComplete s (s'.loseLine idx h 1).wakeRoom) ∧
     (rspCode f = 1 → h.line.space = false →
       (∀ t, s'.moveToMemory idx h = some t → Carries .moveComplete s t.wakeRoom) ∧
       (s'.moveToMemory idx h = none → Carries .moveComplete s s) ∧
       (∀ (d : Line) (p : Bool), s.home.ht = [(idx, h)] → h.passed = false → h.rclm = false → h.data = some (d, p) → s.freeTags ≠ [] →
         Leaves .moveComplete s fun t => t.home.ht = [] ∧
           ∃ v ∈ t.mp.hold, v.line = h.line ∧ v.data = d ∧ v.pois = p ∧ v.tag ∈ s.freeTags ∧ v.cause = .walk))))

/-! ### Knead unit and scans (11, 12) -/

/-- Knead operations and scans (R323, R324, R326, R358, R360, R361, R369, R376, R377). KNEAD_COMMIT carries out the operation of its
entry; a scalar ATOMIC leaves its result in the line's entry of the line buffer, answers with the value it returns, and closes. A
write-back puts an entry's line into its slot again, and the entry is clean. A SCAN is accepted without an answer, its columns not
started, or refused with the code of the first row of R358 it fails; a free column takes the scan; a row waits for its lines, or is
scored; of a fused scan the row's key is read, and its value where it is at this slice, and both join the running maximum and sum, while
a value at another slice is an error; and when no column has rows left the result leaves. That events 122 and 123 come once for each
line (log 52), that a poisoned query poisons every row (log 61), and that all results leave together (log 63), are the model's choices. -/
def Obligations.KneadAndScans : Prop :=
  (∀ (e : BitVec 9) (x : Resid) (h : Ht) (r : Req) (s : State), s.starts → tabGet s.home.ht e.toNat = some h → h.why = .req r →
    h.st = .knead → h.lbw = false → s.lockOpen r.line = true → (s.commitWrites r = false ∨ s.freeTags ≠ []) →
    Carries (.kneadCommit e x) s (s.commit e.toNat h r x) ∧
    (∀ (i : Nat) (b : Lb), s.lbFind r.line = some (i, b) → tabSorted s.knd.lb = true → b.bare = false → s.commitWrites r = false → r.op ≤ 10 → r.sr = false →
      r.opc = 8 → r.acq = false → h.tags = [] → h.passed = false → h.rclm = false → s.nothingWaits → s.home.walk = false →
      s.chk.upsets = [] → h.wbad = false →
      (let res := scalarOp r b.data (payLine (s.payload r)) none
       Leaves (.kneadCommit e .pass) s fun t =>
         (∃ b', tabGet t.knd.lb i = some b' ∧ b'.line = b.line ∧ b'.data = res.line ∧ b'.kn = true) ∧
         t.home.ht = tabDel s.home.ht e.toNat ∧
         ∃ m ∈ t.port.ready, m.port = portOf r.src ∧
           m.flits = [rspFlit r.name.sty r.name.src r.name 0 0 (b.mt.psn || payPois (s.payload r)) 0 0 false 0 res.rval]))) ∧
  (∀ (i : BitVec 6) (b : Lb) (s : State), s.starts → tabGet s.knd.lb i.toNat = some b → b.kn = true → b.bare = false →
    s.lbDue b = true → s.lbFree b = true →
    Carries (.lineBufferWriteback i) s (s.lbWriteBack i.toNat (s.lbClass b)).1 ∧
    (∀ (k n : Nat) (f : Frame), s.chk.upsets = [] → b.frame = none → s.find b.line = some (k, n) → s.frame k = some f → f.fmt.admits (fitOf b.data) = true →
      f.fmt ≠ .invalid → s.unlocked (s.bankOf b.line) (loafOf b.line) = true → s.cfg.compat = false → tabSorted s.knd.lb = true →
      Leaves (.lineBufferWriteback i) s fun t =>
        (∃ m, t.frame k = some (f.write n (lidxOf b.line) b.data m) ∧ m.kn = false ∧ m.crust = crust b.line b.data) ∧
        (∀ b', tabGet t.knd.lb i.toNat = some b' → b'.kn = false ∧ b'.data = b.data) ∧ t.mp = s.mp ∧ t.home = s.home)) ∧
  (∀ (r : Req) (rest : List Req) (s : State), s.coreUp = true → s.home.scanQ = r :: rest → s.knd.scans.length < 8 →
    (s.deadReq r.name = true → Leaves .scan s fun t =>
      t.home = { s.home with scanQ := rest, toerr := setBit s.home.toerr 3 } ∧ t.knd.scans = s.knd.scans ∧
      t.port.ready = s.port.ready) ∧
    (s.deadReq r.name = false → s.scanCheck r (scanDesc (s.payload r)) = none → Leaves .scan s fun t =>
      t.home.scanQ = rest ∧ t.port.ready = s.port.ready ∧ t.arr = s.arr ∧
      ∃ j, t.knd.scans = s.knd.scans ++ [j] ∧ j.r = r ∧ j.desc = scanDesc (s.payload r) ∧ j.cols.length = 4 ∧
        ∀ c ∈ j.cols, c.started = false ∧ c.rows = 0) ∧
    (∀ code, s.deadReq r.name = false → s.scanCheck r (scanDesc (s.payload r)) = some code → Leaves .scan s fun t =>
      t.home.scanQ = rest ∧ t.knd.scans = s.knd.scans ∧ t.port.ready = s.port.ready ++ [s.compMsg r code false 0 false] ∧ t.arr = s.arr)) ∧
  (∀ (col : BitVec 2) (i : Nat) (j : ScanJob) (s : State), s.coreUp = true →
    (s.nextScan col.toNat = some (i, j) → (∀ q ∈ s.knd.scans, q.on col.toNat = false) →
      Carries (.scanColumnStart col) s { s with knd.scans := upd s.knd.scans i fun q =>
        { q with cols := upd q.cols col.toNat fun _ => { j.col col.toNat with started := true } } }) ∧
    (∀ (seen : ScanSeen) (kc vc : Chk), s.starts → s.scanOn col.toNat = some (i, j) →
      (let c := j.col col.toNat
       (∀ l, s.firstNeed j c.next = some (l, .busy) → Carries (.scanRow col seen kc vc) s
         (if c.wait = some (l, 122) then s else (s.setCol i col.toNat { c with wait := some (l, 122) }).ev 122)) ∧
       (∀ l, s.firstNeed j c.next = some (l, .kn) → Carries (.scanRow col seen kc vc) s
         (if c.wait = some (l, 123) then s else (s.setCol i col.toNat { c with wait := some (l, 123) }).ev 123)) ∧
       (s.firstNeed j c.next = none → s.rowServed j c.next = false → Carries (.scanRow col seen kc vc) s s) ∧
       (∀ (v : Nat) (p : Bool), s.firstNeed j c.next = none → s.rowServed j c.next = true → s.cfg.chk.level.toNat < 2 →
         descFused j.desc = false → j.cols.length = 4 → kc.more = [] → vc.more = [] →
         (s.readRow j (descKey j.desc c.next) (rowBytes (descKfmt j.desc) (descDim j.desc)) kc).2 = some (v, p) →
         (let sc := scoreOf j.desc v j.queryBits
          let bad := p || j.pois
          Leaves (.scanRow col seen kc vc) s fun t =>
            (∃ j', t.knd.scans[i]? = some j' ∧ (j'.col col.toNat).rows = c.rows + 1 ∧
              (j'.col col.toNat).next = s.rowFrom j.r.space j.desc col.toNat (j.rows - (c.next + 1)) (c.next + 1) ∧
              (j'.col col.toNat).scores = c.scores ++
                [(⟨c.next, if bad then 0x7FC00000 else sc.1, bad, sc.2 || bad⟩ : Score)]) ∧
            t.home.ht = s.home.ht ∧ t.port.ready = s.port.ready)) ∧
       (∀ (v : Nat) (p : Bool), s.firstNeed j c.next = none → s.rowServed j c.next = true → s.cfg.chk.level.toNat < 2 →
         descFused j.desc = true → j.cols.length = 4 → kc.more = [] → vc.more = [] →
         (let key := s.readRow j (descKey j.desc c.next) (rowBytes (descKfmt j.desc) (descDim j.desc)) kc
          let value := (key.1.readRow j (descVal j.desc c.next) (rowBytes (descVfmt j.desc) (descDim j.desc)) vc).2
          let sc := scoreOf j.desc v j.queryBits
          let folds (t : State) (vv : Option Nat) (pois : Bool) : Prop :=
            ∃ j', t.knd.scans[i]? = some j' ∧ (let c' := j'.col col.toNat
              let mn := max32 c.m sc.1
              c'.rows = c.rows + 1 ∧ c'.next = s.rowFrom j.r.space j.desc col.toNat (j.rows - (c.next + 1)) (c.next + 1) ∧
              c'.folded = c.folded + 1 ∧ c'.m = mn ∧ c'.l = add32 (mul32 c.l (expDiff c.m mn)) (expDiff sc.1 mn) ∧
              c'.o = (foldRow j.desc c sc.1 sc.2 vv).o ∧ c'.pois = (c.pois || p || j.pois || pois) ∧
              c'.vsplit = (c.vsplit || vv.isNone))
          key.2 = some (v, p) →
            (∀ (vv : Nat) (pv : Bool), s.valueHere j c.next = true → value = some (vv, pv) →
              Leaves (.scanRow col seen kc vc) s fun t => folds t (some vv) pv ∧ t.port.ready = s.port.ready) ∧
            (s.valueHere j c.next = false → Leaves (.scanRow col seen kc vc) s fun t =>
              folds t none false ∧ bit t.knd.scerr 2 = true ∧ t.port.ready = s.port.ready)))))) ∧
  (∀ (i : Nat) (j : ScanJob) (s : State), s.coreUp = true → s.heldTags j.tags = [] →
    (((List.range s.knd.scans.length).zip s.knd.scans).find? fun p => (List.range 4).all fun n => !p.2.left n) = some (i, j) →
    Leaves .scanComplete s fun t =>
      t.knd.scans = s.knd.scans.eraseIdx i ∧ t.port.ready.length = s.port.ready.length + 2 * j.segs.length ∧ t.home = s.home ∧
      t.arr = s.arr)

/-! ### Landing groups (09) -/

/-- Landing tallies (R59, R282, R284, R285, R287): the flush timer sends the unsent count once, when nothing holds it back, and keeps
its trigger otherwise; the count returns when its add fails; a poll reads the tally; a failed add or subtraction is sent again; a tally
that times out answers its final write ERR_LANDING and frees the group, but for the TXN of a read that is outstanding (R40). -/
def Obligations.LandingTallies : Prop :=
  ∀ (g : BitVec 6) (s : State),
    (let e := s.landAt g.toNat
     let fired := s.setLand g.toNat { e with flush := false }
     let sent : Land := { e with u := 0, flush := false, add := some e.u, again := false, due := false }
     (s.coreUp = true → e.flush = true → e.u ≠ 0 → e.again = false →
       (s.tallyRuns = true → e.add = none → fired.roomFor false = true → Leaves (.landingFlushTimer g) s fun t =>
         t.landAt g.toNat = sent ∧ t.port.ready.length = s.port.ready.length + 1 ∧ t.home = s.home ∧ t.arr = s.arr) ∧
       ((s.tallyRuns = false ∨ e.add ≠ none) → Leaves (.landingFlushTimer g) s fun t =>
         t.landAt g.toNat = { e with flush := false, due := true } ∧ t.port.ready = s.port.ready ∧ t.home = s.home)) ∧
     (∀ x f, s.rspAt (s.tallyComp 0xE00) = some (x, f) → (flitName f).txn.toNat = 0xE00 + g.toNat →
       Carries .tallyAddComplete s (s.addDone x f).wakeRoom ∧
       (∀ k, e.add = some k → rspCode f ≠ 0 →
         (s.addDone x f).landAt g.toNat = { e with add := none, u := e.u + k, again := true } ∧
         bit (s.addDone x f).land.err 3 = true)) ∧
     (∀ x f, s.rspAt s.isRead = some (x, f) → Carries .tallyReadComplete s (s.readDone x f).wakeRoom) ∧
     (∀ x f, s.rspAt (fun f => s.tallyComp 0xE40 f && rspType f != 1 && !s.isRead f) = some (x, f) →
       Carries .tallySubComplete s (s.subDone x f).wakeRoom) ∧
     (s.tallyRuns = true → e.tally = .gap → s.roomFor true = true → Leaves (.tallyPoll g) s fun t =>
       t.landAt g.toNat = { e with tally := .reading } ∧ t.port.ready.length = s.port.ready.length + 1 ∧ t.home = s.home) ∧
     (s.tallyRuns = true → s.roomFor false = true → e.tally ≠ .subGap → e.again = true → e.add = none → e.u ≠ 0 →
       Leaves (.tallyRetry g) s fun t => t.landAt g.toNat = sent ∧ t.port.ready.length = s.port.ready.length + 1) ∧
     (s.tallyRuns = true → s.roomFor false = true → e.tally = .subGap → Leaves (.tallyRetry g) s fun t =>
       t.landAt g.toNat = { e with tally := .subbing } ∧ t.port.ready.length = s.port.ready.length + 1) ∧
     (∀ h, tabSorted s.land.tab = true → e.held = some h → (e.tally = .adding ∨ e.tally = .reading ∨ e.tally = .gap) →
       Leaves (.tallyTimeout g) s fun t =>
       t.landAt g.toNat = { e with held := none, tally := .idle, stale := e.stale || e.tally = .reading } ∧
       t.land.err = setBit s.land.err 0 ∧
       t.port.ready = s.port.ready ++ [s.compMsg h.r 8 false 0 false] ∧ t.home = s.home ∧ t.arr = s.arr))

/-! ### QoS and proof patterns (13, 14) -/

/-- QoS (R383, R384, R386, R390, R391): an average moves by the arithmetic shift; a step is taken at its threshold and dropped a
sixteenth of the target below it; the window's end gives every class its new average and steps, empties its samples, and marks a
guarantee miss where step 4 is taken; and the rise limiter's idle and level steps, the ramp ending at level 3. -/
def Obligations.QosSteps : Prop :=
  (∀ (avg : BitVec 20) (sum shift : Nat), newAvg avg sum 0 shift = avg) ∧
  (∀ (avg : BitVec 20) (sum cnt shift : Nat), cnt ≠ 0 →
    newAvg avg sum cnt shift = BitVec.ofInt 20 (avg.toNat + ((sum / cnt * 16 : Nat) - (avg.toNat : Int)) / 2 ^ shift)) ∧
  (∀ (target avg i : Nat) (held : Bool), 0 < target → 1 ≤ i → i ≤ 4 →
    (avg ≥ 16 * threshold target i → stepAfter target avg i held = true) ∧
    (avg + 16 * (target / 16) < 16 * threshold target i → stepAfter target avg i held = false) ∧
    (avg < 16 * threshold target i → 16 * threshold target i ≤ avg + 16 * (target / 16) → stepAfter target avg i held = held)) ∧
  (∀ s : State, s.coreUp = true → s.qos.avg.length = 16 →
    (let avg (c : Nat) : BitVec 20 := newAvg (s.qavg c).avg (s.qavg c).sum (s.qavg c).cnt s.cfg.qos.shift.toNat
     let steps (c : Nat) : BitVec 4 := newSteps (s.qcls c).target.toNat (avg c).toNat (s.qavg c).steps
     Leaves .qosWindowEnd s fun t =>
       (∀ c < 16, nth t.qos.avg c ⟨0, 0, 0, 0⟩ = ⟨avg c, steps c, 0, 0⟩) ∧
       (∀ c < 16, bit t.qos.gmiss c =
         (bit s.qos.gmiss c || ((s.qcls c).gmen && bit (steps c) 3 && !bit (s.qavg c).steps 3))) ∧
       t.qos.k = s.qos.k ∧ t.qos.eff = s.qos.eff ∧ t.qos.idle = s.qos.idle ∧ t.qos.ramp = s.qos.ramp ∧ t.cfg = s.cfg ∧ t.home = s.home)) ∧
  (∀ (g : BitVec 2) (s : State), s.coreUp = true →
    (s.cfg.qos.rlEn = true → bit s.qos.idle g.toNat = false →
      Carries (.bankGroupIdle g) s { s with qos.idle := setBit s.qos.idle g.toNat }) ∧
    (∀ l, nth s.qos.ramp g.toNat none = some l → Carries (.rampLevelStep g) s
      { s with qos.ramp := upd s.qos.ramp g.toNat fun _ => if l < 2 then some (l + 1) else none }))

/-- Proof patterns (R423, R424): a run falls due for the next pair of the round; a run whose slot was written is void, a slot with a
reserved value is skipped with CHK_ERR.PATBAD, a run that passes copies CHK_STEP, and one that fails sets CHK_ERR.PROOF and the cause
PROOF and is counted. That a run is under way from the command that makes it due is the model's choice (log 16). -/
def Obligations.PatternRuns : Prop :=
  ∀ (x : Nat) (s : State), s.patRuns = true →
    (s.patNextPair = some x → s.chk.patDue = none → Carries .patternRunDue s
      { s with chk.patDue := some x, chk.patNext := (x + 1) % 256, chk.patVoid := false }) ∧
    (s.starts → s.chk.patDue = some x → x < 256 → ∀ wrong : Bool,
      (s.chk.patVoid = true → Leaves (.patternRun wrong) s fun t =>
        (fld t.chk.patst 8 2 : BitVec 2) = 3 ∧ t.chk.patfail = s.chk.patfail ∧ t.chk.patok = s.chk.patok ∧ t.chk.patDue = none) ∧
      (s.chk.patVoid = false → s.patOk (x / 4) (x % 4) = false → Leaves (.patternRun wrong) s fun t =>
        t.chk.err = setBit s.chk.err 9 ∧ t.chk.patst = s.chk.patst ∧ t.chk.patDue = none) ∧
      (s.chk.patVoid = false → s.patOk (x / 4) (x % 4) = true → (s.patPasses (x / 4) && !wrong) = true →
        Leaves (.patternRun wrong) s fun t =>
          (fld t.chk.patst 8 2 : BitVec 2) = 1 ∧ t.chk.patok = upd s.chk.patok (x % 4) (fun _ => s.chk.step) ∧
          t.chk.patfail = s.chk.patfail ∧ t.arr = s.arr ∧ t.home = s.home) ∧
      (s.chk.patVoid = false → s.patOk (x / 4) (x % 4) = true → (s.patPasses (x / 4) && !wrong) = false →
        Leaves (.patternRun wrong) s fun t =>
          (fld t.chk.patst 8 2 : BitVec 2) = 2 ∧ t.chk.patok = s.chk.patok ∧ t.chk.patfail = satAdd s.chk.patfail 1 ∧
          bit t.chk.err 8 = true ∧ bit t.chk.susp 1 = true ∧ t.arr = s.arr ∧ t.home = s.home))

/-! ### The saddle link (03) -/

/-- Training (R84, R91 to R96, R110): what ends each phase, and with what error code training ends down. CAPEX ends with the lanes both
sides can use, the widest group of them, and the candidate rates from the highest down, and asks the PHY for the first; a PRBS step ends
with the result of its rate, and another rate is tried while it can still do better than the best so far; else that best is settled, its
lanes are enabled, and ALIGN begins, after a change of rate where another was tried last. A training that follows a loss reports LNK_DOWN
in place of the code (log 18), and is left out here. That a change of PHY rate that waited is asked for in the step that ends the one
before is the model's choice (log 95). -/
def Obligations.SaddleTraining : Prop :=
  ∀ s : State, s.lnk.lost = false → s.ctl.st ≠ .linking →
    (let downWith (t : State) (code : BitVec 5) : Prop :=
       t.lnk.st = .down ∧ t.lnk.errc = code ∧ bit t.lnk.err 0 = true ∧ t.lnk.laneEn = 0 ∧ t.ctl = s.ctl
     (∀ fe, s.lnk.st = .detect → Carries (.detectEnd fe) s
       { s with lnk.st := .ts1, lnk.laneEn := 0xFF
                lnk.drv := pack 8 ((List.range 8).map fun l => (l, num (fe.extractLsb' (2 * l) 2 == 2#2))) }) ∧
     (s.lnk.st = .ts1 → s.ring.spRst = false → Carries .ts1Recognised s { s with lnk.st := .lanechk }) ∧
     (s.lnk.st = .ts1 → Leaves .noPartnerTimeout s fun t => downWith t 1) ∧
     (∀ obs, s.lnk.st = .lanechk →
       (s.lnk.drv = 0 → Leaves (.lanechkEnd obs) s fun t =>
         t.lnk.st = .capex ∧ t.lnk.rev = reversed obs ∧
         ∀ l < 8, bit t.lnk.usable l = (laneCode obs 0 (reversed obs) l == 0) ∧
           (fld t.lnk.lflt (3 * l) 3 : BitVec 3).toNat = laneCode obs 0 (reversed obs) l) ∧
       (s.lnk.drv ≠ 0 → Leaves (.lanechkEnd obs) s fun t => downWith t 2 ∧ bit t.lnk.err 4 = true)) ∧
     (∀ pcap pgood maxr pmaxr, s.lnk.st = .capex →
       ((fld s.lnk.cfg.cap 2 4 &&& fld pcap 2 4 : BitVec 4) = 0 →
         Leaves (.capexDone pcap pgood maxr pmaxr) s fun t => downWith t 4 ∧ t.lnk.pcap = pcap &&& 0x1FF) ∧
       ((fld s.lnk.cfg.cap 2 4 &&& fld pcap 2 4 : BitVec 4) ≠ 0 → s.lnk.usable &&& pgood = 0 →
         Leaves (.capexDone pcap pgood maxr pmaxr) s fun t => downWith t 3 ∧ t.lnk.pcap = pcap &&& 0x1FF) ∧
       (∀ (w b : Nat), s.lnk.phyReq = false →
         bestGroup (s.lnk.usable &&& pgood) (fld s.lnk.cfg.cap 2 4 &&& fld pcap 2 4) = some (w, b) →
         (let top := Nat.min 2 (Nat.min (Nat.min (fld s.lnk.cfg.cap 0 2 : BitVec 2).toNat maxr.toNat)
            (Nat.min (fld pcap 0 2 : BitVec 2).toNat pmaxr.toNat))
          Leaves (.capexDone pcap pgood maxr pmaxr) s fun t =>
            t.lnk.st = .rateset ∧ t.lnk.pcap = pcap &&& 0x1FF ∧ t.lnk.usable = s.lnk.usable &&& pgood ∧ t.lnk.best = none ∧
            t.lnk.width3 = BitVec.ofNat 2 w ∧ t.lnk.cands = ((List.range (top + 1)).reverse).map (BitVec.ofNat 2) ∧
            t.lnk.phyReq = true ∧ t.lnk.phyRate = BitVec.ofNat 2 top ∧
            t.lnk.phySsc = (bit s.lnk.cfg.cap 7 && bit pcap 7 && (bit s.lnk.cfg.cap 8 || bit pcap 8)) ∧ t.ctl = s.ctl ∧
            t.home = s.home))) ∧
     (s.lnk.phyReq = true → s.ring.spRst = false →
       (s.lnk.st = .rateset → s.lnk.want = none → s.lnk.cands ≠ [] →
         Carries .phyRateReady s { s with lnk.phyReq := false, lnk.st := .prbs, lnk.laneEn := s.lnk.usable }) ∧
       (∀ rate ssc, s.lnk.want = some (rate, ssc) → Carries .phyRateReady s
         { s with lnk.phyReq := true, lnk.phyRate := rate, lnk.phySsc := ssc, lnk.want := none })) ∧
     (s.lnk.phyReq = true → s.training = true → Leaves .phyTimeout s fun t => downWith t 5) ∧
     (∀ errs ppass r, s.lnk.st = .prbs → s.lnk.cands = [r] → s.lnk.best = none →
       s.lnk.usable &&& prbsMask (s.fecAt r.toNat) errs &&& ppass = 0 → Leaves (.prbsEnd errs ppass) s fun t => downWith t 3) ∧
     (∀ (errs : List Nat) (ppass : Byte) (r : BitVec 2), s.lnk.st = .prbs →
       (let here := prbsMask (s.fecAt r.toNat) errs
        let pass := s.lnk.usable &&& here &&& ppass
        let cmd : Instr := .prbsEnd errs ppass
        let told (t : State) : Prop := t.ctl = s.ctl ∧ t.home = s.home ∧
          (∀ l < 8, bit s.lnk.usable l = true → (fld t.lnk.lflt (3 * l) 3 : BitVec 3).toNat = if bit here l then 0 else 4)
        (∀ (w b : Nat), s.lnk.cands = [r] → s.lnk.best = none → s.lnk.phyRate = r → bestGroup pass s.widths = some (w, b) →
          Leaves cmd s fun t => told t ∧ t.lnk.st = .align ∧ t.lnk.cands = [] ∧ t.lnk.laneEn = groupMask w b ∧ t.lnk.aligned = 0 ∧
            t.lnk.best = some { rate := r, group := groupMask w b, lanes := pass, width := BitVec.ofNat 2 w, base := BitVec.ofNat 3 b
                                fec := s.fecAt r.toNat, ssc := s.sscOn }) ∧
        (∀ (q : BitVec 2) (rest : List (BitVec 2)), s.lnk.cands = r :: q :: rest → s.lnk.phyReq = false →
          (let best := betterMode s.lnk.best (s.prbsResult r pass)
           let more := rateValue q.toNat s.lnk.width3.toNat (s.fecAt q.toNat) > (best.map Mode.value).getD 0
           (more → Leaves cmd s fun t => told t ∧ t.lnk.st = .rateset ∧ t.lnk.cands = q :: rest ∧ t.lnk.best = best ∧
             t.lnk.phyReq = true ∧ t.lnk.phyRate = q ∧ t.lnk.phySsc = s.sscOn) ∧
           (∀ m, ¬more → best = some m → m.rate = s.lnk.phyRate → Leaves cmd s fun t => told t ∧ t.lnk.st = .align ∧
             t.lnk.cands = [] ∧ t.lnk.best = some m ∧ t.lnk.laneEn = m.group) ∧
           (∀ m, ¬more → best = some m → m.rate ≠ s.lnk.phyRate → Leaves cmd s fun t => told t ∧ t.lnk.st = .rateset ∧
             t.lnk.cands = [] ∧ t.lnk.best = some m ∧ t.lnk.phyReq = true ∧ t.lnk.phyRate = m.rate))))) ∧
     ((∀ fec errs, prbsPass fec errs = true ↔ errs ≤ if fec then 4026 else 0)) ∧
     (s.lnk.st = .capex → Leaves (.trainPhaseTimeout .capex) s fun t => downWith t 6) ∧
     (s.lnk.st = .align → Leaves (.trainPhaseTimeout .align) s fun t => downWith t 6) ∧
     (∀ m, s.lnk.st = .align → s.lnk.aligned ≥ 8 → s.lnk.best = some m → Leaves .alignDone s fun t =>
       t.lnk.st = .up ∧ t.lnk.mode = m ∧ t.lnk.good = m.group ∧ t.lnk.credit = [128, 64, 128, 256] ∧ t.ctl = s.ctl))

/-- A link in service (R86, R88, R89, R98 to R103, R107, R119): a lane that fails gets fault code 0b110 and starts an in-service retrain
without it, which becomes full training when it overruns; a data frame goes out, into the transmit FIFO, with SEQ, ACK and its CRC, with
the flit that waits and has credit, which is retained, or without flits while none waits, and a control frame, with its CRC, after 31
others. A frame with a wrong CRC is discarded and a replay asked for. A good data frame returns credits, and its ACK ends the retention of
what it covers; its flits, when it is the next in order, go on to the ring or are taken here, and are discarded while a replay is awaited; a
replay request resends what is retained. A good control frame returns credits by its counts too, is counted in ALIGN, and ends a lane's
run of wrong markers. That unfilled slots are zeros (log 38), how a control frame fills its slots (log 87), and that the receive FIFO is
empty because a frame is taken as it comes (log 89), are the model's choices. -/
def Obligations.SaddleService : Prop :=
  ∀ s : State, s.ctl.st ≠ .off →
    (∀ lane : BitVec 3, s.lnk.st = .up → bit s.lnk.good lane.toNat = true →
      (let failed (t : State) : Prop :=
         t.lnk.st = .retrain ∧ t.lnk.rreq = true ∧ bit t.lnk.keep lane.toNat = false ∧ bit t.lnk.laneEn lane.toNat = false ∧
         (fld t.lnk.lflt (3 * lane.toNat) 3 : BitVec 3) = 6 ∧ t.lnk.tx = s.lnk.tx ∧ t.lnk.replay = s.lnk.replay
       Leaves (.saddleSignalLoss lane) s failed ∧
       (s.lnk.mode.fec = true → Leaves (.saddleSymbolThreshold lane) s failed))) ∧
    (s.lnk.st = .retrain → Leaves .retrainTimeout s fun t => t.lnk.st = .detect ∧ t.lnk.lost = true ∧ t.lnk.errc = 0) ∧
    (s.lnk.st = .up → s.lnk.txFifo.length < 16 →
      (let sends (t : State) (f : SentFrame) : Prop := t.lnk.sent = some f ∧ t.lnk.txFifo = s.lnk.txFifo ++ [f]
       let data (seq : BitVec 6) (cnt : Nat) (slots : List Flit) : SentFrame :=
         .data (withCrc (frameHdr (num s.lnk.ask) seq s.lnk.ack cnt 0 0) slots) slots
       (s.lnk.since < 31 → s.lnk.resend = [] → s.lnk.tx = [] → s.lnk.sel = [] → s.lnk.owed = [0, 0, 0, 0] →
         Leaves (.saddleFrameSend []) s fun t => sends t (data s.lnk.seq 0 (List.replicate 16 0)) ∧
           t.lnk.seq = s.lnk.seq ∧ t.lnk.replay = s.lnk.replay ∧ t.lnk.since = s.lnk.since + 1 ∧ t.lnk.ask = false) ∧
       (∀ x : OutFlit, s.starts → s.lnk.since < 31 → s.lnk.resend = [] → s.lnk.tx = [x] → s.lnk.sel = [] → s.lnk.owed = [0, 0, 0, 0] →
         x.bad = 0 → flitVc x.f ≠ 0 → isPayload x.f = false → nth s.lnk.credit (flitVc x.f) 0 ≠ 0 → s.lnk.replay.length < 32 →
         s.lnk.retained + 1 ≤ 512 → Leaves (.saddleFrameSend []) s fun t =>
           sends t (data (s.lnk.seq + 1) 1 (x.f :: List.replicate 15 0)) ∧ t.lnk.seq = s.lnk.seq + 1 ∧ t.lnk.tx = [] ∧
           t.lnk.replay = s.lnk.replay ++ [(s.lnk.seq + 1, ([x.f], 0))] ∧
           t.lnk.credit = upd s.lnk.credit (flitVc x.f) (· - 1) ∧ t.lnk.since = s.lnk.since + 1 ∧ t.lnk.ask = false) ∧
       (s.lnk.since = 31 → (∀ x ∈ s.lnk.sel ++ s.lnk.tx, x.bad = 0) → Leaves (.saddleFrameSend []) s fun t =>
         (let c := s.ctlFields 2
          sends t (.ctl (withCrc (frameHdr 2 s.lnk.seq s.lnk.ack 0 0 0) (ctlSlots c)) (ctlSlots c) c)) ∧
         t.lnk.since = 0 ∧ t.lnk.tx = s.lnk.tx ∧ t.lnk.replay = s.lnk.replay))) ∧
    (∀ (hdr : BitVec 40) (slots : List Flit) (c : CtlFields) (fec : FecFound),
      (s.lnk.st = .up ∨ s.lnk.st = .align ∨ s.lnk.st = .retrain) → s.ring.spRst = false →
      (let cmd : Instr := .saddleFrameReceive hdr slots c fec
       let good := fec.bad = false ∧ fld hdr 24 16 = frameCrc (fld hdr 0 24) slots
       let seq : BitVec 6 := fld hdr 2 6
       let a : BitVec 6 := fld hdr 8 6
       let cnt := (fld hdr 14 5 : BitVec 5).toNat
       let returned (vc : Nat) : Nat := if vc = (fld hdr 19 2 : BitVec 2).toNat then 4 * (fld hdr 21 3 : BitVec 3).toNat else 0
       let acks (t : State) : Prop :=
         ((∀ r ∈ s.lnk.replay, r.1 ≠ a) → t.lnk.replay = s.lnk.replay) ∧
         (∀ (pre post : List (BitVec 6 × (List Flit × Nat))) (x : List Flit × Nat), s.lnk.replay = pre ++ (a, x) :: post →
           (∀ r ∈ pre, r.1 ≠ a) → t.lnk.replay = post)
       let still (t : State) : Prop := t.home = s.home ∧ t.arr = s.arr ∧ t.lnk.seq = s.lnk.seq ∧ t.lnk.tx = s.lnk.tx
       (bit hdr 1 = false → ¬good → Carries cmd s { s.pulses 1 31 fec.corr with lnk.disc := true, lnk.ask := true }) ∧
       (bit hdr 1 = true → ¬good → s.lnk.st = .align → Leaves cmd s fun t =>
         t.lnk.disc = true ∧ t.lnk.ask = true ∧ t.lnk.aligned = 0 ∧ t.lnk.credit = s.lnk.credit ∧ still t) ∧
       (bit hdr 1 = false → bit hdr 0 = false → good → cnt = 0 → s.lnk.credit.length = 4 → Leaves cmd s fun t =>
         acks t ∧ (∀ vc < 4, nth t.lnk.credit vc 0 = nth s.lnk.credit vc 0 + returned vc) ∧ t.lnk.ack = s.lnk.ack ∧
         t.lnk.disc = s.lnk.disc ∧ t.lnk.ask = s.lnk.ask ∧ t.lnk.st = s.lnk.st ∧ t.port = s.port ∧ still t) ∧
       (∀ (x : List Flit) (n : Nat) (post : List (BitVec 6 × (List Flit × Nat))), bit hdr 1 = false → bit hdr 0 = true → good →
         cnt = 0 → s.lnk.st = .up → s.lnk.replay = (a + 1, (x, n)) :: post → (∀ r ∈ post, r.1 ≠ a ∧ r.1 ≠ a + 1) → n < 3 →
         Leaves cmd s fun t => t.lnk.replay = (a + 1, (x, n + 1)) :: post ∧ t.lnk.resend = s.lnk.replay.map (fun r => r.1) ∧
           t.lnk.st = .up ∧ t.port = s.port ∧ still t) ∧
       (∀ f : Flit, bit hdr 1 = false → bit hdr 0 = false → good → cnt = 1 → slots.head? = some f →
         (let here := flitDtyp f && flitDst f = s.ring.tieSlice
          (seq = s.lnk.ack + 1 → here = false → flitVc f ≠ 1 → Leaves cmd s fun t =>
            t.lnk.ack = seq ∧ t.lnk.disc = false ∧
            (∃ m, t.port.ready = s.port.ready ++ [m] ∧ m.flits = [f] ∧ m.port = 0 ∧ m.sad = true ∧ m.vc.toNat = flitVc f) ∧
            t.lnk.owed = s.lnk.owed ∧ still t) ∧
          (seq = s.lnk.ack + 1 → here = true → flitVc f = 0 → s.coreUp = true → s.reqRoom f = true → s.lnk.owed.length = 4 →
            Leaves cmd s fun t => t.lnk.ack = seq ∧ t.lnk.disc = false ∧ t.port.rx.req = s.port.rx.req ++ [⟨f, false⟩] ∧
              nth t.lnk.owed 0 0 = nth s.lnk.owed 0 0 + 1 ∧ still t) ∧
          (seq ≠ s.lnk.ack + 1 → s.lnk.disc = true → Leaves cmd s fun t =>
            t.lnk.ack = s.lnk.ack ∧ t.lnk.disc = true ∧ t.lnk.ask = s.lnk.ask ∧ t.port = s.port ∧ still t))) ∧
       (bit hdr 1 = true → bit hdr 0 = false → good → s.lnk.credit.length = 4 →
         (∀ l < 8, bit s.ctlLanes l = true → nth c.marks l 0 = laneMarker l seq) → Leaves cmd s fun t =>
           acks t ∧ (∀ vc < 4, nth t.lnk.credit vc 0 = nth s.lnk.credit vc 0 + returned vc +
             (fld c.credits (10 * vc) 10 : BitVec 10).toNat) ∧ t.lnk.st = s.lnk.st ∧ t.lnk.ack = s.lnk.ack ∧ t.port = s.port ∧ still t ∧
           (s.lnk.st = .align → t.lnk.aligned = s.lnk.aligned + 1) ∧ (s.lnk.st = .up → t.lnk.badMk = List.replicate 8 0))))

/-! ### Sets, indices and checksums -/

/-- A line's set within its bank, the same for the four lines of a loaf; the map index of its loaf; its snoop-filter set and tag; its
crust tag. -/
def Obligations.SetsAndCrusts : Prop :=
  (∀ (sp : Bool) (a : Addr),
    setOf (lineOf sp a) = 256 * ((a.extractLsb' 17 35).toNat % 3) + (a.extractLsb' 9 8 ^^^ a.extractLsb' 17 8).toNat ∧
    mapIndex (lineOf sp a) =
      a.extractLsb' 9 12 ^^^ a.extractLsb' 21 12 ^^^ a.extractLsb' 33 12 ^^^ (a.extractLsb' 45 7).setWidth 12 ∧
    sfSet (lineOf sp a) = (a.extractLsb' 7 13 ^^^ a.extractLsb' 20 13).toNat ∧ sfTag (lineOf sp a) = a.extractLsb' 20 32) ∧
  (∀ (sp : Bool) (a b : Addr), a.extractLsb' 9 43 = b.extractLsb' 9 43 → setOf (lineOf sp a) = setOf (lineOf sp b)) ∧
  (∀ (sp : Bool) (a : Addr) (d : Line), crust (lineOf sp a) d =
    crc32c (bytesOf ((a.extractLsb' 7 45).setWidth 64 <<< (7 : Nat) ||| (if sp then 1#64 <<< 63 else 0)) 8 ++ bytesOf d 128)) ∧
  (crc32c [0x31, 0x32, 0x33, 0x34, 0x35, 0x36, 0x37, 0x38, 0x39] = 0xE3069283) ∧
  (sfSet (lineOf false 0x0123456789A80) = 5202 ∧ sfTag (lineOf false 0x0123456789A80) = 0x01234567)
end

