-- ==== Sys2Proof/Laws/State.lean ====
section
/-! SUPPORT. The fields each shared update of Machine/Ops.lean leaves alone, one lemma a field. -/
namespace Sys2Proof.Machine

@[simp] theorem State.evk_ring (s : State) (n q k : Nat) : (s.evk n q k).ring = s.ring := by unfold State.evk; split <;> simp
@[simp] theorem State.evk_ctl (s : State) (n q k : Nat) : (s.evk n q k).ctl = s.ctl := by unfold State.evk; split <;> simp
@[simp] theorem State.evk_cfg (s : State) (n q k : Nat) : (s.evk n q k).cfg = s.cfg := by unfold State.evk; split <;> simp
@[simp] theorem State.evk_arr (s : State) (n q k : Nat) : (s.evk n q k).arr = s.arr := by unfold State.evk; split <;> simp
@[simp] theorem State.evk_mp (s : State) (n q k : Nat) : (s.evk n q k).mp = s.mp := by unfold State.evk; split <;> simp
@[simp] theorem State.evk_home (s : State) (n q k : Nat) : (s.evk n q k).home = s.home := by unfold State.evk; split <;> simp
@[simp] theorem State.evk_port (s : State) (n q k : Nat) : (s.evk n q k).port = s.port := by unfold State.evk; split <;> simp
@[simp] theorem State.evk_knd (s : State) (n q k : Nat) : (s.evk n q k).knd = s.knd := by unfold State.evk; split <;> simp
@[simp] theorem State.evk_pin (s : State) (n q k : Nat) : (s.evk n q k).pin = s.pin := by unfold State.evk; split <;> simp
@[simp] theorem State.evk_land (s : State) (n q k : Nat) : (s.evk n q k).land = s.land := by unfold State.evk; split <;> simp
@[simp] theorem State.evk_qos (s : State) (n q k : Nat) : (s.evk n q k).qos = s.qos := by unfold State.evk; split <;> simp
@[simp] theorem State.evk_chk (s : State) (n q k : Nat) : (s.evk n q k).chk = s.chk := by unfold State.evk; split <;> simp
@[simp] theorem State.evk_pwr (s : State) (n q k : Nat) : (s.evk n q k).pwr = s.pwr := by unfold State.evk; split <;> simp
@[simp] theorem State.evk_lnk (s : State) (n q k : Nat) : (s.evk n q k).lnk = s.lnk := by unfold State.evk; split <;> simp
@[simp] theorem State.evk_rg (s : State) (n q k : Nat) : (s.evk n q k).rg = s.rg := by unfold State.evk; split <;> simp
@[simp] theorem State.evk_tap (s : State) (n q k : Nat) : (s.evk n q k).tap = s.tap := by unfold State.evk; split <;> simp
@[simp] theorem State.evk_pending (s : State) (n q k : Nat) : (s.evk n q k).pending = s.pending := by unfold State.evk; split <;> simp

@[simp] theorem State.ev_ring (s : State) (n : Nat) : (s.ev n).ring = s.ring := by simp [State.ev]
@[simp] theorem State.ev_ctl (s : State) (n : Nat) : (s.ev n).ctl = s.ctl := by simp [State.ev]
@[simp] theorem State.ev_cfg (s : State) (n : Nat) : (s.ev n).cfg = s.cfg := by simp [State.ev]
@[simp] theorem State.ev_arr (s : State) (n : Nat) : (s.ev n).arr = s.arr := by simp [State.ev]
@[simp] theorem State.ev_mp (s : State) (n : Nat) : (s.ev n).mp = s.mp := by simp [State.ev]
@[simp] theorem State.ev_home (s : State) (n : Nat) : (s.ev n).home = s.home := by simp [State.ev]
@[simp] theorem State.ev_port (s : State) (n : Nat) : (s.ev n).port = s.port := by simp [State.ev]
@[simp] theorem State.ev_knd (s : State) (n : Nat) : (s.ev n).knd = s.knd := by simp [State.ev]
@[simp] theorem State.ev_pin (s : State) (n : Nat) : (s.ev n).pin = s.pin := by simp [State.ev]
@[simp] theorem State.ev_land (s : State) (n : Nat) : (s.ev n).land = s.land := by simp [State.ev]
@[simp] theorem State.ev_qos (s : State) (n : Nat) : (s.ev n).qos = s.qos := by simp [State.ev]
@[simp] theorem State.ev_chk (s : State) (n : Nat) : (s.ev n).chk = s.chk := by simp [State.ev]
@[simp] theorem State.ev_pwr (s : State) (n : Nat) : (s.ev n).pwr = s.pwr := by simp [State.ev]
@[simp] theorem State.ev_lnk (s : State) (n : Nat) : (s.ev n).lnk = s.lnk := by simp [State.ev]
@[simp] theorem State.ev_rg (s : State) (n : Nat) : (s.ev n).rg = s.rg := by simp [State.ev]
@[simp] theorem State.ev_tap (s : State) (n : Nat) : (s.ev n).tap = s.tap := by simp [State.ev]
@[simp] theorem State.ev_pending (s : State) (n : Nat) : (s.ev n).pending = s.pending := by simp [State.ev]

@[simp] theorem State.evq_ring (s : State) (n q : Nat) : (s.evq n q).ring = s.ring := by simp [State.evq]
@[simp] theorem State.evq_ctl (s : State) (n q : Nat) : (s.evq n q).ctl = s.ctl := by simp [State.evq]
@[simp] theorem State.evq_cfg (s : State) (n q : Nat) : (s.evq n q).cfg = s.cfg := by simp [State.evq]
@[simp] theorem State.evq_arr (s : State) (n q : Nat) : (s.evq n q).arr = s.arr := by simp [State.evq]
@[simp] theorem State.evq_mp (s : State) (n q : Nat) : (s.evq n q).mp = s.mp := by simp [State.evq]
@[simp] theorem State.evq_home (s : State) (n q : Nat) : (s.evq n q).home = s.home := by simp [State.evq]
@[simp] theorem State.evq_port (s : State) (n q : Nat) : (s.evq n q).port = s.port := by simp [State.evq]
@[simp] theorem State.evq_knd (s : State) (n q : Nat) : (s.evq n q).knd = s.knd := by simp [State.evq]
@[simp] theorem State.evq_pin (s : State) (n q : Nat) : (s.evq n q).pin = s.pin := by simp [State.evq]
@[simp] theorem State.evq_land (s : State) (n q : Nat) : (s.evq n q).land = s.land := by simp [State.evq]
@[simp] theorem State.evq_qos (s : State) (n q : Nat) : (s.evq n q).qos = s.qos := by simp [State.evq]
@[simp] theorem State.evq_chk (s : State) (n q : Nat) : (s.evq n q).chk = s.chk := by simp [State.evq]
@[simp] theorem State.evq_pwr (s : State) (n q : Nat) : (s.evq n q).pwr = s.pwr := by simp [State.evq]
@[simp] theorem State.evq_lnk (s : State) (n q : Nat) : (s.evq n q).lnk = s.lnk := by simp [State.evq]
@[simp] theorem State.evq_rg (s : State) (n q : Nat) : (s.evq n q).rg = s.rg := by simp [State.evq]
@[simp] theorem State.evq_tap (s : State) (n q : Nat) : (s.evq n q).tap = s.tap := by simp [State.evq]
@[simp] theorem State.evq_pending (s : State) (n q : Nat) : (s.evq n q).pending = s.pending := by simp [State.evq]

@[simp] theorem State.charge_ring (s : State) (k : Nat) (c : BitVec 4) (n : Nat) : (s.charge k c n).ring = s.ring := rfl
@[simp] theorem State.charge_ctl (s : State) (k : Nat) (c : BitVec 4) (n : Nat) : (s.charge k c n).ctl = s.ctl := rfl
@[simp] theorem State.charge_cfg (s : State) (k : Nat) (c : BitVec 4) (n : Nat) : (s.charge k c n).cfg = s.cfg := rfl
@[simp] theorem State.charge_arr (s : State) (k : Nat) (c : BitVec 4) (n : Nat) : (s.charge k c n).arr = s.arr := rfl
@[simp] theorem State.charge_mp (s : State) (k : Nat) (c : BitVec 4) (n : Nat) : (s.charge k c n).mp = s.mp := rfl
@[simp] theorem State.charge_home (s : State) (k : Nat) (c : BitVec 4) (n : Nat) : (s.charge k c n).home = s.home := rfl
@[simp] theorem State.charge_port (s : State) (k : Nat) (c : BitVec 4) (n : Nat) : (s.charge k c n).port = s.port := rfl
@[simp] theorem State.charge_knd (s : State) (k : Nat) (c : BitVec 4) (n : Nat) : (s.charge k c n).knd = s.knd := rfl
@[simp] theorem State.charge_pin (s : State) (k : Nat) (c : BitVec 4) (n : Nat) : (s.charge k c n).pin = s.pin := rfl
@[simp] theorem State.charge_land (s : State) (k : Nat) (c : BitVec 4) (n : Nat) : (s.charge k c n).land = s.land := rfl
@[simp] theorem State.charge_qos (s : State) (k : Nat) (c : BitVec 4) (n : Nat) : (s.charge k c n).qos = s.qos := rfl
@[simp] theorem State.charge_chk (s : State) (k : Nat) (c : BitVec 4) (n : Nat) : (s.charge k c n).chk = s.chk := rfl
@[simp] theorem State.charge_pmc (s : State) (k : Nat) (c : BitVec 4) (n : Nat) : (s.charge k c n).pmc = s.pmc := rfl
@[simp] theorem State.charge_lnk (s : State) (k : Nat) (c : BitVec 4) (n : Nat) : (s.charge k c n).lnk = s.lnk := rfl
@[simp] theorem State.charge_rg (s : State) (k : Nat) (c : BitVec 4) (n : Nat) : (s.charge k c n).rg = s.rg := rfl
@[simp] theorem State.charge_tap (s : State) (k : Nat) (c : BitVec 4) (n : Nat) : (s.charge k c n).tap = s.tap := rfl
@[simp] theorem State.charge_pending (s : State) (k : Nat) (c : BitVec 4) (n : Nat) : (s.charge k c n).pending = s.pending := rfl

@[simp] theorem State.start_ring (s : State) (g : Nat) : (s.start g).ring = s.ring := by unfold State.start; split <;> simp
@[simp] theorem State.start_ctl (s : State) (g : Nat) : (s.start g).ctl = s.ctl := by unfold State.start; split <;> simp
@[simp] theorem State.start_cfg (s : State) (g : Nat) : (s.start g).cfg = s.cfg := by unfold State.start; split <;> simp
@[simp] theorem State.start_arr (s : State) (g : Nat) : (s.start g).arr = s.arr := by unfold State.start; split <;> simp
@[simp] theorem State.start_mp (s : State) (g : Nat) : (s.start g).mp = s.mp := by unfold State.start; split <;> simp
@[simp] theorem State.start_home (s : State) (g : Nat) : (s.start g).home = s.home := by unfold State.start; split <;> simp
@[simp] theorem State.start_port (s : State) (g : Nat) : (s.start g).port = s.port := by unfold State.start; split <;> simp
@[simp] theorem State.start_knd (s : State) (g : Nat) : (s.start g).knd = s.knd := by unfold State.start; split <;> simp
@[simp] theorem State.start_pin (s : State) (g : Nat) : (s.start g).pin = s.pin := by unfold State.start; split <;> simp
@[simp] theorem State.start_land (s : State) (g : Nat) : (s.start g).land = s.land := by unfold State.start; split <;> simp
@[simp] theorem State.start_chk (s : State) (g : Nat) : (s.start g).chk = s.chk := by unfold State.start; split <;> simp
@[simp] theorem State.start_pwr (s : State) (g : Nat) : (s.start g).pwr = s.pwr := by unfold State.start; split <;> simp
@[simp] theorem State.start_lnk (s : State) (g : Nat) : (s.start g).lnk = s.lnk := by unfold State.start; split <;> simp
@[simp] theorem State.start_rg (s : State) (g : Nat) : (s.start g).rg = s.rg := by unfold State.start; split <;> simp
@[simp] theorem State.start_tap (s : State) (g : Nat) : (s.start g).tap = s.tap := by unfold State.start; split <;> simp
@[simp] theorem State.start_pending (s : State) (g : Nat) : (s.start g).pending = s.pending := by unfold State.start; split <;> simp

@[simp] theorem State.stIrq_ring (s : State) (i : Nat) : (s.stIrq i).ring = s.ring := rfl
@[simp] theorem State.stIrq_cfg (s : State) (i : Nat) : (s.stIrq i).cfg = s.cfg := rfl
@[simp] theorem State.stIrq_arr (s : State) (i : Nat) : (s.stIrq i).arr = s.arr := rfl
@[simp] theorem State.stIrq_mp (s : State) (i : Nat) : (s.stIrq i).mp = s.mp := rfl
@[simp] theorem State.stIrq_home (s : State) (i : Nat) : (s.stIrq i).home = s.home := rfl
@[simp] theorem State.stIrq_port (s : State) (i : Nat) : (s.stIrq i).port = s.port := rfl
@[simp] theorem State.stIrq_knd (s : State) (i : Nat) : (s.stIrq i).knd = s.knd := rfl
@[simp] theorem State.stIrq_pin (s : State) (i : Nat) : (s.stIrq i).pin = s.pin := rfl
@[simp] theorem State.stIrq_land (s : State) (i : Nat) : (s.stIrq i).land = s.land := rfl
@[simp] theorem State.stIrq_qos (s : State) (i : Nat) : (s.stIrq i).qos = s.qos := rfl
@[simp] theorem State.stIrq_chk (s : State) (i : Nat) : (s.stIrq i).chk = s.chk := rfl
@[simp] theorem State.stIrq_pwr (s : State) (i : Nat) : (s.stIrq i).pwr = s.pwr := rfl
@[simp] theorem State.stIrq_pmc (s : State) (i : Nat) : (s.stIrq i).pmc = s.pmc := rfl
@[simp] theorem State.stIrq_lnk (s : State) (i : Nat) : (s.stIrq i).lnk = s.lnk := rfl
@[simp] theorem State.stIrq_rg (s : State) (i : Nat) : (s.stIrq i).rg = s.rg := rfl
@[simp] theorem State.stIrq_tap (s : State) (i : Nat) : (s.stIrq i).tap = s.tap := rfl
@[simp] theorem State.stIrq_pending (s : State) (i : Nat) : (s.stIrq i).pending = s.pending := rfl

@[simp] theorem State.chkErr_ring (s : State) (i : Nat) : (s.chkErr i).ring = s.ring := rfl
@[simp] theorem State.chkErr_ctl (s : State) (i : Nat) : (s.chkErr i).ctl = s.ctl := rfl
@[simp] theorem State.chkErr_cfg (s : State) (i : Nat) : (s.chkErr i).cfg = s.cfg := rfl
@[simp] theorem State.chkErr_arr (s : State) (i : Nat) : (s.chkErr i).arr = s.arr := rfl
@[simp] theorem State.chkErr_mp (s : State) (i : Nat) : (s.chkErr i).mp = s.mp := rfl
@[simp] theorem State.chkErr_home (s : State) (i : Nat) : (s.chkErr i).home = s.home := rfl
@[simp] theorem State.chkErr_port (s : State) (i : Nat) : (s.chkErr i).port = s.port := rfl
@[simp] theorem State.chkErr_knd (s : State) (i : Nat) : (s.chkErr i).knd = s.knd := rfl
@[simp] theorem State.chkErr_pin (s : State) (i : Nat) : (s.chkErr i).pin = s.pin := rfl
@[simp] theorem State.chkErr_land (s : State) (i : Nat) : (s.chkErr i).land = s.land := rfl
@[simp] theorem State.chkErr_qos (s : State) (i : Nat) : (s.chkErr i).qos = s.qos := rfl
@[simp] theorem State.chkErr_pwr (s : State) (i : Nat) : (s.chkErr i).pwr = s.pwr := rfl
@[simp] theorem State.chkErr_pmc (s : State) (i : Nat) : (s.chkErr i).pmc = s.pmc := rfl
@[simp] theorem State.chkErr_lnk (s : State) (i : Nat) : (s.chkErr i).lnk = s.lnk := rfl
@[simp] theorem State.chkErr_rg (s : State) (i : Nat) : (s.chkErr i).rg = s.rg := rfl
@[simp] theorem State.chkErr_tap (s : State) (i : Nat) : (s.chkErr i).tap = s.tap := rfl
@[simp] theorem State.chkErr_pending (s : State) (i : Nat) : (s.chkErr i).pending = s.pending := rfl

@[simp] theorem State.suspect_ring (s : State) (i : Nat) : (s.suspect i).ring = s.ring := rfl
@[simp] theorem State.suspect_ctl (s : State) (i : Nat) : (s.suspect i).ctl = s.ctl := rfl
@[simp] theorem State.suspect_cfg (s : State) (i : Nat) : (s.suspect i).cfg = s.cfg := rfl
@[simp] theorem State.suspect_arr (s : State) (i : Nat) : (s.suspect i).arr = s.arr := rfl
@[simp] theorem State.suspect_mp (s : State) (i : Nat) : (s.suspect i).mp = s.mp := rfl
@[simp] theorem State.suspect_home (s : State) (i : Nat) : (s.suspect i).home = s.home := rfl
@[simp] theorem State.suspect_port (s : State) (i : Nat) : (s.suspect i).port = s.port := rfl
@[simp] theorem State.suspect_knd (s : State) (i : Nat) : (s.suspect i).knd = s.knd := rfl
@[simp] theorem State.suspect_pin (s : State) (i : Nat) : (s.suspect i).pin = s.pin := rfl
@[simp] theorem State.suspect_land (s : State) (i : Nat) : (s.suspect i).land = s.land := rfl
@[simp] theorem State.suspect_qos (s : State) (i : Nat) : (s.suspect i).qos = s.qos := rfl
@[simp] theorem State.suspect_pwr (s : State) (i : Nat) : (s.suspect i).pwr = s.pwr := rfl
@[simp] theorem State.suspect_pmc (s : State) (i : Nat) : (s.suspect i).pmc = s.pmc := rfl
@[simp] theorem State.suspect_lnk (s : State) (i : Nat) : (s.suspect i).lnk = s.lnk := rfl
@[simp] theorem State.suspect_rg (s : State) (i : Nat) : (s.suspect i).rg = s.rg := rfl
@[simp] theorem State.suspect_tap (s : State) (i : Nat) : (s.suspect i).tap = s.tap := rfl
@[simp] theorem State.suspect_pending (s : State) (i : Nat) : (s.suspect i).pending = s.pending := rfl

@[simp] theorem State.screePush_ring (s : State) (b : BitVec 512) : (s.screePush b).ring = s.ring := by unfold State.screePush; split <;> simp
@[simp] theorem State.screePush_ctl (s : State) (b : BitVec 512) : (s.screePush b).ctl = s.ctl := by unfold State.screePush; split <;> simp
@[simp] theorem State.screePush_cfg (s : State) (b : BitVec 512) : (s.screePush b).cfg = s.cfg := by unfold State.screePush; split <;> simp
@[simp] theorem State.screePush_arr (s : State) (b : BitVec 512) : (s.screePush b).arr = s.arr := by unfold State.screePush; split <;> simp
@[simp] theorem State.screePush_mp (s : State) (b : BitVec 512) : (s.screePush b).mp = s.mp := by unfold State.screePush; split <;> simp
@[simp] theorem State.screePush_home (s : State) (b : BitVec 512) : (s.screePush b).home = s.home := by unfold State.screePush; split <;> simp
@[simp] theorem State.screePush_port (s : State) (b : BitVec 512) : (s.screePush b).port = s.port := by unfold State.screePush; split <;> simp
@[simp] theorem State.screePush_knd (s : State) (b : BitVec 512) : (s.screePush b).knd = s.knd := by unfold State.screePush; split <;> simp
@[simp] theorem State.screePush_pin (s : State) (b : BitVec 512) : (s.screePush b).pin = s.pin := by unfold State.screePush; split <;> simp
@[simp] theorem State.screePush_land (s : State) (b : BitVec 512) : (s.screePush b).land = s.land := by unfold State.screePush; split <;> simp
@[simp] theorem State.screePush_qos (s : State) (b : BitVec 512) : (s.screePush b).qos = s.qos := by unfold State.screePush; split <;> simp
@[simp] theorem State.screePush_pwr (s : State) (b : BitVec 512) : (s.screePush b).pwr = s.pwr := by unfold State.screePush; split <;> simp
@[simp] theorem State.screePush_pmc (s : State) (b : BitVec 512) : (s.screePush b).pmc = s.pmc := by unfold State.screePush; split <;> simp
@[simp] theorem State.screePush_lnk (s : State) (b : BitVec 512) : (s.screePush b).lnk = s.lnk := by unfold State.screePush; split <;> simp
@[simp] theorem State.screePush_rg (s : State) (b : BitVec 512) : (s.screePush b).rg = s.rg := by unfold State.screePush; split <;> simp
@[simp] theorem State.screePush_tap (s : State) (b : BitVec 512) : (s.screePush b).tap = s.tap := by unfold State.screePush; split <;> simp
@[simp] theorem State.screePush_pending (s : State) (b : BitVec 512) : (s.screePush b).pending = s.pending := by
  unfold State.screePush; split <;> simp

@[simp] theorem State.scree_ring (s : State) (r : Scree) : (s.scree r).ring = s.ring := by unfold State.scree; split <;> split <;> simp
@[simp] theorem State.scree_ctl (s : State) (r : Scree) : (s.scree r).ctl = s.ctl := by unfold State.scree; split <;> split <;> simp
@[simp] theorem State.scree_cfg (s : State) (r : Scree) : (s.scree r).cfg = s.cfg := by unfold State.scree; split <;> split <;> simp
@[simp] theorem State.scree_arr (s : State) (r : Scree) : (s.scree r).arr = s.arr := by unfold State.scree; split <;> split <;> simp
@[simp] theorem State.scree_mp (s : State) (r : Scree) : (s.scree r).mp = s.mp := by unfold State.scree; split <;> split <;> simp
@[simp] theorem State.scree_home (s : State) (r : Scree) : (s.scree r).home = s.home := by unfold State.scree; split <;> split <;> simp
@[simp] theorem State.scree_port (s : State) (r : Scree) : (s.scree r).port = s.port := by unfold State.scree; split <;> split <;> simp
@[simp] theorem State.scree_knd (s : State) (r : Scree) : (s.scree r).knd = s.knd := by unfold State.scree; split <;> split <;> simp
@[simp] theorem State.scree_pin (s : State) (r : Scree) : (s.scree r).pin = s.pin := by unfold State.scree; split <;> split <;> simp
@[simp] theorem State.scree_land (s : State) (r : Scree) : (s.scree r).land = s.land := by unfold State.scree; split <;> split <;> simp
@[simp] theorem State.scree_qos (s : State) (r : Scree) : (s.scree r).qos = s.qos := by unfold State.scree; split <;> split <;> simp
@[simp] theorem State.scree_pwr (s : State) (r : Scree) : (s.scree r).pwr = s.pwr := by unfold State.scree; split <;> split <;> simp
@[simp] theorem State.scree_lnk (s : State) (r : Scree) : (s.scree r).lnk = s.lnk := by unfold State.scree; split <;> split <;> simp
@[simp] theorem State.scree_rg (s : State) (r : Scree) : (s.scree r).rg = s.rg := by unfold State.scree; split <;> split <;> simp
@[simp] theorem State.scree_tap (s : State) (r : Scree) : (s.scree r).tap = s.tap := by unfold State.scree; split <;> split <;> simp
@[simp] theorem State.scree_pending (s : State) (r : Scree) : (s.scree r).pending = s.pending := by unfold State.scree; split <;> split <;> simp

@[simp] theorem State.limitRecord_ring (s : State) (c l : Nat) : (s.limitRecord c l).ring = s.ring := by simp [State.limitRecord]
@[simp] theorem State.limitRecord_ctl (s : State) (c l : Nat) : (s.limitRecord c l).ctl = s.ctl := by simp [State.limitRecord]
@[simp] theorem State.limitRecord_cfg (s : State) (c l : Nat) : (s.limitRecord c l).cfg = s.cfg := by simp [State.limitRecord]
@[simp] theorem State.limitRecord_arr (s : State) (c l : Nat) : (s.limitRecord c l).arr = s.arr := by simp [State.limitRecord]
@[simp] theorem State.limitRecord_mp (s : State) (c l : Nat) : (s.limitRecord c l).mp = s.mp := by simp [State.limitRecord]
@[simp] theorem State.limitRecord_home (s : State) (c l : Nat) : (s.limitRecord c l).home = s.home := by simp [State.limitRecord]
@[simp] theorem State.limitRecord_port (s : State) (c l : Nat) : (s.limitRecord c l).port = s.port := by simp [State.limitRecord]
@[simp] theorem State.limitRecord_knd (s : State) (c l : Nat) : (s.limitRecord c l).knd = s.knd := by simp [State.limitRecord]
@[simp] theorem State.limitRecord_pin (s : State) (c l : Nat) : (s.limitRecord c l).pin = s.pin := by simp [State.limitRecord]
@[simp] theorem State.limitRecord_land (s : State) (c l : Nat) : (s.limitRecord c l).land = s.land := by simp [State.limitRecord]
@[simp] theorem State.limitRecord_qos (s : State) (c l : Nat) : (s.limitRecord c l).qos = s.qos := by simp [State.limitRecord]
@[simp] theorem State.limitRecord_pwr (s : State) (c l : Nat) : (s.limitRecord c l).pwr = s.pwr := by simp [State.limitRecord]
@[simp] theorem State.limitRecord_lnk (s : State) (c l : Nat) : (s.limitRecord c l).lnk = s.lnk := by simp [State.limitRecord]
@[simp] theorem State.limitRecord_rg (s : State) (c l : Nat) : (s.limitRecord c l).rg = s.rg := by simp [State.limitRecord]
@[simp] theorem State.limitRecord_tap (s : State) (c l : Nat) : (s.limitRecord c l).tap = s.tap := by simp [State.limitRecord]
@[simp] theorem State.limitRecord_pending (s : State) (c l : Nat) : (s.limitRecord c l).pending = s.pending := by simp [State.limitRecord]

@[simp] theorem State.parExh_ring (s : State) : (s.parExh).ring = s.ring := by unfold State.parExh; dsimp only; split <;> simp
@[simp] theorem State.parExh_ctl (s : State) : (s.parExh).ctl = s.ctl := by unfold State.parExh; dsimp only; split <;> simp
@[simp] theorem State.parExh_cfg (s : State) : (s.parExh).cfg = s.cfg := by unfold State.parExh; dsimp only; split <;> simp
@[simp] theorem State.parExh_arr (s : State) : (s.parExh).arr = s.arr := by unfold State.parExh; dsimp only; split <;> simp
@[simp] theorem State.parExh_mp (s : State) : (s.parExh).mp = s.mp := by unfold State.parExh; dsimp only; split <;> simp
@[simp] theorem State.parExh_home (s : State) : (s.parExh).home = s.home := by unfold State.parExh; dsimp only; split <;> simp
@[simp] theorem State.parExh_port (s : State) : (s.parExh).port = s.port := by unfold State.parExh; dsimp only; split <;> simp
@[simp] theorem State.parExh_knd (s : State) : (s.parExh).knd = s.knd := by unfold State.parExh; dsimp only; split <;> simp
@[simp] theorem State.parExh_pin (s : State) : (s.parExh).pin = s.pin := by unfold State.parExh; dsimp only; split <;> simp
@[simp] theorem State.parExh_land (s : State) : (s.parExh).land = s.land := by unfold State.parExh; dsimp only; split <;> simp
@[simp] theorem State.parExh_qos (s : State) : (s.parExh).qos = s.qos := by unfold State.parExh; dsimp only; split <;> simp
@[simp] theorem State.parExh_pwr (s : State) : (s.parExh).pwr = s.pwr := by unfold State.parExh; dsimp only; split <;> simp
@[simp] theorem State.parExh_lnk (s : State) : (s.parExh).lnk = s.lnk := by unfold State.parExh; dsimp only; split <;> simp
@[simp] theorem State.parExh_rg (s : State) : (s.parExh).rg = s.rg := by unfold State.parExh; dsimp only; split <;> simp
@[simp] theorem State.parExh_tap (s : State) : (s.parExh).tap = s.tap := by unfold State.parExh; dsimp only; split <;> simp
@[simp] theorem State.parExh_pending (s : State) : (s.parExh).pending = s.pending := by unfold State.parExh; dsimp only; split <;> simp

@[simp] theorem State.resRerun_ring (s : State) : (s.resRerun).ring = s.ring := by unfold State.resRerun; dsimp only; split <;> simp
@[simp] theorem State.resRerun_ctl (s : State) : (s.resRerun).ctl = s.ctl := by unfold State.resRerun; dsimp only; split <;> simp
@[simp] theorem State.resRerun_cfg (s : State) : (s.resRerun).cfg = s.cfg := by unfold State.resRerun; dsimp only; split <;> simp
@[simp] theorem State.resRerun_arr (s : State) : (s.resRerun).arr = s.arr := by unfold State.resRerun; dsimp only; split <;> simp
@[simp] theorem State.resRerun_mp (s : State) : (s.resRerun).mp = s.mp := by unfold State.resRerun; dsimp only; split <;> simp
@[simp] theorem State.resRerun_home (s : State) : (s.resRerun).home = s.home := by unfold State.resRerun; dsimp only; split <;> simp
@[simp] theorem State.resRerun_port (s : State) : (s.resRerun).port = s.port := by unfold State.resRerun; dsimp only; split <;> simp
@[simp] theorem State.resRerun_pin (s : State) : (s.resRerun).pin = s.pin := by unfold State.resRerun; dsimp only; split <;> simp
@[simp] theorem State.resRerun_land (s : State) : (s.resRerun).land = s.land := by unfold State.resRerun; dsimp only; split <;> simp
@[simp] theorem State.resRerun_qos (s : State) : (s.resRerun).qos = s.qos := by unfold State.resRerun; dsimp only; split <;> simp
@[simp] theorem State.resRerun_pwr (s : State) : (s.resRerun).pwr = s.pwr := by unfold State.resRerun; dsimp only; split <;> simp
@[simp] theorem State.resRerun_lnk (s : State) : (s.resRerun).lnk = s.lnk := by unfold State.resRerun; dsimp only; split <;> simp
@[simp] theorem State.resRerun_rg (s : State) : (s.resRerun).rg = s.rg := by unfold State.resRerun; dsimp only; split <;> simp
@[simp] theorem State.resRerun_tap (s : State) : (s.resRerun).tap = s.tap := by unfold State.resRerun; dsimp only; split <;> simp
@[simp] theorem State.resRerun_pending (s : State) : (s.resRerun).pending = s.pending := by unfold State.resRerun; dsimp only; split <;> simp

@[simp] theorem State.replays_ring (s : State) (n : Nat) : (s.replays n).ring = s.ring := by simp [State.replays]
@[simp] theorem State.replays_ctl (s : State) (n : Nat) : (s.replays n).ctl = s.ctl := by simp [State.replays]
@[simp] theorem State.replays_cfg (s : State) (n : Nat) : (s.replays n).cfg = s.cfg := by simp [State.replays]
@[simp] theorem State.replays_arr (s : State) (n : Nat) : (s.replays n).arr = s.arr := by simp [State.replays]
@[simp] theorem State.replays_mp (s : State) (n : Nat) : (s.replays n).mp = s.mp := by simp [State.replays]
@[simp] theorem State.replays_home (s : State) (n : Nat) : (s.replays n).home = s.home := by simp [State.replays]
@[simp] theorem State.replays_port (s : State) (n : Nat) : (s.replays n).port = s.port := by simp [State.replays]
@[simp] theorem State.replays_knd (s : State) (n : Nat) : (s.replays n).knd = s.knd := by simp [State.replays]
@[simp] theorem State.replays_pin (s : State) (n : Nat) : (s.replays n).pin = s.pin := by simp [State.replays]
@[simp] theorem State.replays_land (s : State) (n : Nat) : (s.replays n).land = s.land := by simp [State.replays]
@[simp] theorem State.replays_qos (s : State) (n : Nat) : (s.replays n).qos = s.qos := by simp [State.replays]
@[simp] theorem State.replays_pwr (s : State) (n : Nat) : (s.replays n).pwr = s.pwr := by simp [State.replays]
@[simp] theorem State.replays_lnk (s : State) (n : Nat) : (s.replays n).lnk = s.lnk := by simp [State.replays]
@[simp] theorem State.replays_rg (s : State) (n : Nat) : (s.replays n).rg = s.rg := by simp [State.replays]
@[simp] theorem State.replays_tap (s : State) (n : Nat) : (s.replays n).tap = s.tap := by simp [State.replays]
@[simp] theorem State.replays_pending (s : State) (n : Nat) : (s.replays n).pending = s.pending := by simp [State.replays]

@[simp] theorem State.ceCount_ring (s : State) : (s.ceCount).ring = s.ring := by simp [State.ceCount]
@[simp] theorem State.ceCount_ctl (s : State) : (s.ceCount).ctl = s.ctl := by simp [State.ceCount]
@[simp] theorem State.ceCount_cfg (s : State) : (s.ceCount).cfg = s.cfg := by simp [State.ceCount]
@[simp] theorem State.ceCount_arr (s : State) : (s.ceCount).arr = s.arr := by simp [State.ceCount]
@[simp] theorem State.ceCount_mp (s : State) : (s.ceCount).mp = s.mp := by simp [State.ceCount]
@[simp] theorem State.ceCount_home (s : State) : (s.ceCount).home = s.home := by simp [State.ceCount]
@[simp] theorem State.ceCount_port (s : State) : (s.ceCount).port = s.port := by simp [State.ceCount]
@[simp] theorem State.ceCount_knd (s : State) : (s.ceCount).knd = s.knd := by simp [State.ceCount]
@[simp] theorem State.ceCount_pin (s : State) : (s.ceCount).pin = s.pin := by simp [State.ceCount]
@[simp] theorem State.ceCount_land (s : State) : (s.ceCount).land = s.land := by simp [State.ceCount]
@[simp] theorem State.ceCount_qos (s : State) : (s.ceCount).qos = s.qos := by simp [State.ceCount]
@[simp] theorem State.ceCount_pwr (s : State) : (s.ceCount).pwr = s.pwr := by simp [State.ceCount]
@[simp] theorem State.ceCount_lnk (s : State) : (s.ceCount).lnk = s.lnk := by simp [State.ceCount]
@[simp] theorem State.ceCount_rg (s : State) : (s.ceCount).rg = s.rg := by simp [State.ceCount]
@[simp] theorem State.ceCount_tap (s : State) : (s.ceCount).tap = s.tap := by simp [State.ceCount]
@[simp] theorem State.ceCount_pending (s : State) : (s.ceCount).pending = s.pending := by simp [State.ceCount]

@[simp] theorem State.ueCount_ring (s : State) : (s.ueCount).ring = s.ring := rfl
@[simp] theorem State.ueCount_ctl (s : State) : (s.ueCount).ctl = s.ctl := rfl
@[simp] theorem State.ueCount_cfg (s : State) : (s.ueCount).cfg = s.cfg := rfl
@[simp] theorem State.ueCount_arr (s : State) : (s.ueCount).arr = s.arr := rfl
@[simp] theorem State.ueCount_mp (s : State) : (s.ueCount).mp = s.mp := rfl
@[simp] theorem State.ueCount_home (s : State) : (s.ueCount).home = s.home := rfl
@[simp] theorem State.ueCount_port (s : State) : (s.ueCount).port = s.port := rfl
@[simp] theorem State.ueCount_knd (s : State) : (s.ueCount).knd = s.knd := rfl
@[simp] theorem State.ueCount_pin (s : State) : (s.ueCount).pin = s.pin := rfl
@[simp] theorem State.ueCount_land (s : State) : (s.ueCount).land = s.land := rfl
@[simp] theorem State.ueCount_qos (s : State) : (s.ueCount).qos = s.qos := rfl
@[simp] theorem State.ueCount_pwr (s : State) : (s.ueCount).pwr = s.pwr := rfl
@[simp] theorem State.ueCount_pmc (s : State) : (s.ueCount).pmc = s.pmc := rfl
@[simp] theorem State.ueCount_lnk (s : State) : (s.ueCount).lnk = s.lnk := rfl
@[simp] theorem State.ueCount_rg (s : State) : (s.ueCount).rg = s.rg := rfl
@[simp] theorem State.ueCount_tap (s : State) : (s.ueCount).tap = s.tap := rfl
@[simp] theorem State.ueCount_pending (s : State) : (s.ueCount).pending = s.pending := rfl

/-! ### The fields these updates do change -/

theorem State.charge_pwr (s : State) (k : Nat) (c : BitVec 4) (n : Nat) : (s.charge k c n).pwr =
    { s.pwr with acc := upd s.pwr.acc c.toNat fun a => a + BitVec.ofNat 56 ((nth s.cfg.ener.coef k 0).toNat * n) } := rfl
theorem State.stIrq_ctl (s : State) (i : Nat) : (s.stIrq i).ctl = { s.ctl with irq := setBit s.ctl.irq i } := rfl
theorem State.chkErr_chk (s : State) (i : Nat) : (s.chkErr i).chk = { s.chk with err := setBit s.chk.err i } := rfl
theorem State.suspect_chk (s : State) (i : Nat) : (s.suspect i).chk = { s.chk with susp := setBit s.chk.susp i, err := setBit s.chk.err 11 } := rfl
theorem State.ueCount_chk (s : State) : s.ueCount.chk = { s.chk with uecnt := satAdd s.chk.uecnt 1 } := rfl

/-- An occurrence is noted with the core out of reset, and nowhere else. -/
theorem State.evk_pmc (s : State) (n q k : Nat) :
    (s.evk n q k).pmc = if s.coreUp && k != 0 then { s.pmc with now := ⟨n, q, k⟩ :: s.pmc.now } else s.pmc := by
  unfold State.evk; split <;> rfl

/-- The scree buffer stays within its 32 records (R427). -/
theorem State.screePush_fits (s : State) (b : BitVec 512) (h : s.chk.scree.length ≤ 32) : (s.screePush b).chk.scree.length ≤ 32 := by
  unfold State.screePush
  split
  · simp; omega
  · simpa [State.suspect, State.chkErr] using h

theorem State.scree_fits (s : State) (r : Scree) (h : s.chk.scree.length ≤ 32) : (s.scree r).chk.scree.length ≤ 32 := by
  unfold State.scree
  apply State.screePush_fits
  dsimp only
  split <;> split <;> simpa [State.suspect, State.chkErr, State.evq, State.evk_chk] using h

end Sys2Proof.Machine
end

