-- ==== Sys2Proof/Laws/Frames.lean ====
section
/-! SUPPORT. The fields the small updates of arrays, ports, tables and status bits leave alone, one lemma a field. -/
namespace Sys2Proof.Machine

@[simp] theorem State.sfPut_ring (s : State) (k : Nat) (e : Sf) : (s.sfPut k e).ring = s.ring := rfl
@[simp] theorem State.sfPut_ctl (s : State) (k : Nat) (e : Sf) : (s.sfPut k e).ctl = s.ctl := rfl
@[simp] theorem State.sfPut_cfg (s : State) (k : Nat) (e : Sf) : (s.sfPut k e).cfg = s.cfg := rfl
@[simp] theorem State.sfPut_arr (s : State) (k : Nat) (e : Sf) : (s.sfPut k e).arr = s.arr := rfl
@[simp] theorem State.sfPut_mp (s : State) (k : Nat) (e : Sf) : (s.sfPut k e).mp = s.mp := rfl
@[simp] theorem State.sfPut_port (s : State) (k : Nat) (e : Sf) : (s.sfPut k e).port = s.port := rfl
@[simp] theorem State.sfPut_knd (s : State) (k : Nat) (e : Sf) : (s.sfPut k e).knd = s.knd := rfl
@[simp] theorem State.sfPut_pin (s : State) (k : Nat) (e : Sf) : (s.sfPut k e).pin = s.pin := rfl
@[simp] theorem State.sfPut_land (s : State) (k : Nat) (e : Sf) : (s.sfPut k e).land = s.land := rfl
@[simp] theorem State.sfPut_qos (s : State) (k : Nat) (e : Sf) : (s.sfPut k e).qos = s.qos := rfl
@[simp] theorem State.sfPut_chk (s : State) (k : Nat) (e : Sf) : (s.sfPut k e).chk = s.chk := rfl
@[simp] theorem State.sfPut_pwr (s : State) (k : Nat) (e : Sf) : (s.sfPut k e).pwr = s.pwr := rfl
@[simp] theorem State.sfPut_pmc (s : State) (k : Nat) (e : Sf) : (s.sfPut k e).pmc = s.pmc := rfl
@[simp] theorem State.sfPut_lnk (s : State) (k : Nat) (e : Sf) : (s.sfPut k e).lnk = s.lnk := rfl
@[simp] theorem State.sfPut_rg (s : State) (k : Nat) (e : Sf) : (s.sfPut k e).rg = s.rg := rfl
@[simp] theorem State.sfPut_tap (s : State) (k : Nat) (e : Sf) : (s.sfPut k e).tap = s.tap := rfl
@[simp] theorem State.sfPut_pending (s : State) (k : Nat) (e : Sf) : (s.sfPut k e).pending = s.pending := rfl

@[simp] theorem State.pinErr_ring (s : State) (i : Nat) : (s.pinErr i).ring = s.ring := rfl
@[simp] theorem State.pinErr_ctl (s : State) (i : Nat) : (s.pinErr i).ctl = s.ctl := rfl
@[simp] theorem State.pinErr_cfg (s : State) (i : Nat) : (s.pinErr i).cfg = s.cfg := rfl
@[simp] theorem State.pinErr_arr (s : State) (i : Nat) : (s.pinErr i).arr = s.arr := rfl
@[simp] theorem State.pinErr_mp (s : State) (i : Nat) : (s.pinErr i).mp = s.mp := rfl
@[simp] theorem State.pinErr_home (s : State) (i : Nat) : (s.pinErr i).home = s.home := rfl
@[simp] theorem State.pinErr_port (s : State) (i : Nat) : (s.pinErr i).port = s.port := rfl
@[simp] theorem State.pinErr_knd (s : State) (i : Nat) : (s.pinErr i).knd = s.knd := rfl
@[simp] theorem State.pinErr_land (s : State) (i : Nat) : (s.pinErr i).land = s.land := rfl
@[simp] theorem State.pinErr_qos (s : State) (i : Nat) : (s.pinErr i).qos = s.qos := rfl
@[simp] theorem State.pinErr_chk (s : State) (i : Nat) : (s.pinErr i).chk = s.chk := rfl
@[simp] theorem State.pinErr_pwr (s : State) (i : Nat) : (s.pinErr i).pwr = s.pwr := rfl
@[simp] theorem State.pinErr_pmc (s : State) (i : Nat) : (s.pinErr i).pmc = s.pmc := rfl
@[simp] theorem State.pinErr_lnk (s : State) (i : Nat) : (s.pinErr i).lnk = s.lnk := rfl
@[simp] theorem State.pinErr_rg (s : State) (i : Nat) : (s.pinErr i).rg = s.rg := rfl
@[simp] theorem State.pinErr_tap (s : State) (i : Nat) : (s.pinErr i).tap = s.tap := rfl
@[simp] theorem State.pinErr_pending (s : State) (i : Nat) : (s.pinErr i).pending = s.pending := rfl

@[simp] theorem State.setFrame_ring (s : State) (k : Nat) (f : Frame) : (s.setFrame k f).ring = s.ring := by unfold State.setFrame; split <;> simp
@[simp] theorem State.setFrame_ctl (s : State) (k : Nat) (f : Frame) : (s.setFrame k f).ctl = s.ctl := by unfold State.setFrame; split <;> simp
@[simp] theorem State.setFrame_cfg (s : State) (k : Nat) (f : Frame) : (s.setFrame k f).cfg = s.cfg := by unfold State.setFrame; split <;> simp
@[simp] theorem State.setFrame_mp (s : State) (k : Nat) (f : Frame) : (s.setFrame k f).mp = s.mp := by unfold State.setFrame; split <;> simp
@[simp] theorem State.setFrame_home (s : State) (k : Nat) (f : Frame) : (s.setFrame k f).home = s.home := by unfold State.setFrame; split <;> simp
@[simp] theorem State.setFrame_port (s : State) (k : Nat) (f : Frame) : (s.setFrame k f).port = s.port := by unfold State.setFrame; split <;> simp
@[simp] theorem State.setFrame_knd (s : State) (k : Nat) (f : Frame) : (s.setFrame k f).knd = s.knd := by unfold State.setFrame; split <;> simp
@[simp] theorem State.setFrame_pin (s : State) (k : Nat) (f : Frame) : (s.setFrame k f).pin = s.pin := by unfold State.setFrame; split <;> simp
@[simp] theorem State.setFrame_land (s : State) (k : Nat) (f : Frame) : (s.setFrame k f).land = s.land := by unfold State.setFrame; split <;> simp
@[simp] theorem State.setFrame_qos (s : State) (k : Nat) (f : Frame) : (s.setFrame k f).qos = s.qos := by unfold State.setFrame; split <;> simp
@[simp] theorem State.setFrame_chk (s : State) (k : Nat) (f : Frame) : (s.setFrame k f).chk = s.chk := by unfold State.setFrame; split <;> simp
@[simp] theorem State.setFrame_pwr (s : State) (k : Nat) (f : Frame) : (s.setFrame k f).pwr = s.pwr := by unfold State.setFrame; split <;> simp
@[simp] theorem State.setFrame_pmc (s : State) (k : Nat) (f : Frame) : (s.setFrame k f).pmc = s.pmc := by unfold State.setFrame; split <;> simp
@[simp] theorem State.setFrame_lnk (s : State) (k : Nat) (f : Frame) : (s.setFrame k f).lnk = s.lnk := by unfold State.setFrame; split <;> simp
@[simp] theorem State.setFrame_rg (s : State) (k : Nat) (f : Frame) : (s.setFrame k f).rg = s.rg := by unfold State.setFrame; split <;> simp
@[simp] theorem State.setFrame_tap (s : State) (k : Nat) (f : Frame) : (s.setFrame k f).tap = s.tap := by unfold State.setFrame; split <;> simp
@[simp] theorem State.setFrame_pending (s : State) (k : Nat) (f : Frame) : (s.setFrame k f).pending = s.pending := by
  unfold State.setFrame; split <;> simp

@[simp] theorem State.lbStale_ring (s : State) (p : Nat → Bool) : (s.lbStale p).ring = s.ring := rfl
@[simp] theorem State.lbStale_ctl (s : State) (p : Nat → Bool) : (s.lbStale p).ctl = s.ctl := rfl
@[simp] theorem State.lbStale_cfg (s : State) (p : Nat → Bool) : (s.lbStale p).cfg = s.cfg := rfl
@[simp] theorem State.lbStale_arr (s : State) (p : Nat → Bool) : (s.lbStale p).arr = s.arr := rfl
@[simp] theorem State.lbStale_mp (s : State) (p : Nat → Bool) : (s.lbStale p).mp = s.mp := rfl
@[simp] theorem State.lbStale_home (s : State) (p : Nat → Bool) : (s.lbStale p).home = s.home := rfl
@[simp] theorem State.lbStale_port (s : State) (p : Nat → Bool) : (s.lbStale p).port = s.port := rfl
@[simp] theorem State.lbStale_pin (s : State) (p : Nat → Bool) : (s.lbStale p).pin = s.pin := rfl
@[simp] theorem State.lbStale_land (s : State) (p : Nat → Bool) : (s.lbStale p).land = s.land := rfl
@[simp] theorem State.lbStale_qos (s : State) (p : Nat → Bool) : (s.lbStale p).qos = s.qos := rfl
@[simp] theorem State.lbStale_chk (s : State) (p : Nat → Bool) : (s.lbStale p).chk = s.chk := rfl
@[simp] theorem State.lbStale_pwr (s : State) (p : Nat → Bool) : (s.lbStale p).pwr = s.pwr := rfl
@[simp] theorem State.lbStale_pmc (s : State) (p : Nat → Bool) : (s.lbStale p).pmc = s.pmc := rfl
@[simp] theorem State.lbStale_lnk (s : State) (p : Nat → Bool) : (s.lbStale p).lnk = s.lnk := rfl
@[simp] theorem State.lbStale_rg (s : State) (p : Nat → Bool) : (s.lbStale p).rg = s.rg := rfl
@[simp] theorem State.lbStale_tap (s : State) (p : Nat → Bool) : (s.lbStale p).tap = s.tap := rfl
@[simp] theorem State.lbStale_pending (s : State) (p : Nat → Bool) : (s.lbStale p).pending = s.pending := rfl

@[simp] theorem State.dropFrame_ring (s : State) (k : Nat) : (s.dropFrame k).ring = s.ring := rfl
@[simp] theorem State.dropFrame_ctl (s : State) (k : Nat) : (s.dropFrame k).ctl = s.ctl := rfl
@[simp] theorem State.dropFrame_cfg (s : State) (k : Nat) : (s.dropFrame k).cfg = s.cfg := rfl
@[simp] theorem State.dropFrame_mp (s : State) (k : Nat) : (s.dropFrame k).mp = s.mp := rfl
@[simp] theorem State.dropFrame_home (s : State) (k : Nat) : (s.dropFrame k).home = s.home := rfl
@[simp] theorem State.dropFrame_port (s : State) (k : Nat) : (s.dropFrame k).port = s.port := rfl
@[simp] theorem State.dropFrame_pin (s : State) (k : Nat) : (s.dropFrame k).pin = s.pin := rfl
@[simp] theorem State.dropFrame_land (s : State) (k : Nat) : (s.dropFrame k).land = s.land := rfl
@[simp] theorem State.dropFrame_qos (s : State) (k : Nat) : (s.dropFrame k).qos = s.qos := rfl
@[simp] theorem State.dropFrame_chk (s : State) (k : Nat) : (s.dropFrame k).chk = s.chk := rfl
@[simp] theorem State.dropFrame_pwr (s : State) (k : Nat) : (s.dropFrame k).pwr = s.pwr := rfl
@[simp] theorem State.dropFrame_pmc (s : State) (k : Nat) : (s.dropFrame k).pmc = s.pmc := rfl
@[simp] theorem State.dropFrame_lnk (s : State) (k : Nat) : (s.dropFrame k).lnk = s.lnk := rfl
@[simp] theorem State.dropFrame_rg (s : State) (k : Nat) : (s.dropFrame k).rg = s.rg := rfl
@[simp] theorem State.dropFrame_tap (s : State) (k : Nat) : (s.dropFrame k).tap = s.tap := rfl
@[simp] theorem State.dropFrame_pending (s : State) (k : Nat) : (s.dropFrame k).pending = s.pending := rfl

@[simp] theorem State.clearSlot_ring (s : State) (k i : Nat) : (s.clearSlot k i).ring = s.ring := by
  unfold State.clearSlot; split
  · rfl
  · dsimp only; split <;> simp
@[simp] theorem State.clearSlot_ctl (s : State) (k i : Nat) : (s.clearSlot k i).ctl = s.ctl := by
  unfold State.clearSlot; split
  · rfl
  · dsimp only; split <;> simp
@[simp] theorem State.clearSlot_cfg (s : State) (k i : Nat) : (s.clearSlot k i).cfg = s.cfg := by
  unfold State.clearSlot; split
  · rfl
  · dsimp only; split <;> simp
@[simp] theorem State.clearSlot_mp (s : State) (k i : Nat) : (s.clearSlot k i).mp = s.mp := by
  unfold State.clearSlot; split
  · rfl
  · dsimp only; split <;> simp
@[simp] theorem State.clearSlot_home (s : State) (k i : Nat) : (s.clearSlot k i).home = s.home := by
  unfold State.clearSlot; split
  · rfl
  · dsimp only; split <;> simp
@[simp] theorem State.clearSlot_port (s : State) (k i : Nat) : (s.clearSlot k i).port = s.port := by
  unfold State.clearSlot; split
  · rfl
  · dsimp only; split <;> simp
@[simp] theorem State.clearSlot_pin (s : State) (k i : Nat) : (s.clearSlot k i).pin = s.pin := by
  unfold State.clearSlot; split
  · rfl
  · dsimp only; split <;> simp
@[simp] theorem State.clearSlot_land (s : State) (k i : Nat) : (s.clearSlot k i).land = s.land := by
  unfold State.clearSlot; split
  · rfl
  · dsimp only; split <;> simp
@[simp] theorem State.clearSlot_qos (s : State) (k i : Nat) : (s.clearSlot k i).qos = s.qos := by
  unfold State.clearSlot; split
  · rfl
  · dsimp only; split <;> simp
@[simp] theorem State.clearSlot_chk (s : State) (k i : Nat) : (s.clearSlot k i).chk = s.chk := by
  unfold State.clearSlot; split
  · rfl
  · dsimp only; split <;> simp
@[simp] theorem State.clearSlot_pwr (s : State) (k i : Nat) : (s.clearSlot k i).pwr = s.pwr := by
  unfold State.clearSlot; split
  · rfl
  · dsimp only; split <;> simp
@[simp] theorem State.clearSlot_pmc (s : State) (k i : Nat) : (s.clearSlot k i).pmc = s.pmc := by
  unfold State.clearSlot; split
  · rfl
  · dsimp only; split <;> simp
@[simp] theorem State.clearSlot_lnk (s : State) (k i : Nat) : (s.clearSlot k i).lnk = s.lnk := by
  unfold State.clearSlot; split
  · rfl
  · dsimp only; split <;> simp
@[simp] theorem State.clearSlot_rg (s : State) (k i : Nat) : (s.clearSlot k i).rg = s.rg := by
  unfold State.clearSlot; split
  · rfl
  · dsimp only; split <;> simp
@[simp] theorem State.clearSlot_tap (s : State) (k i : Nat) : (s.clearSlot k i).tap = s.tap := by
  unfold State.clearSlot; split
  · rfl
  · dsimp only; split <;> simp
@[simp] theorem State.clearSlot_pending (s : State) (k i : Nat) : (s.clearSlot k i).pending = s.pending := by
  unfold State.clearSlot; split
  · rfl
  · dsimp only; split <;> simp

@[simp] theorem State.modMeta_ring (s : State) (k i : Nat) (g : Meta → Meta) : (s.modMeta k i g).ring = s.ring := by
  unfold State.modMeta; split <;> simp
@[simp] theorem State.modMeta_ctl (s : State) (k i : Nat) (g : Meta → Meta) : (s.modMeta k i g).ctl = s.ctl := by unfold State.modMeta; split <;> simp
@[simp] theorem State.modMeta_cfg (s : State) (k i : Nat) (g : Meta → Meta) : (s.modMeta k i g).cfg = s.cfg := by unfold State.modMeta; split <;> simp
@[simp] theorem State.modMeta_mp (s : State) (k i : Nat) (g : Meta → Meta) : (s.modMeta k i g).mp = s.mp := by unfold State.modMeta; split <;> simp
@[simp] theorem State.modMeta_home (s : State) (k i : Nat) (g : Meta → Meta) : (s.modMeta k i g).home = s.home := by
  unfold State.modMeta; split <;> simp
@[simp] theorem State.modMeta_port (s : State) (k i : Nat) (g : Meta → Meta) : (s.modMeta k i g).port = s.port := by
  unfold State.modMeta; split <;> simp
@[simp] theorem State.modMeta_knd (s : State) (k i : Nat) (g : Meta → Meta) : (s.modMeta k i g).knd = s.knd := by unfold State.modMeta; split <;> simp
@[simp] theorem State.modMeta_pin (s : State) (k i : Nat) (g : Meta → Meta) : (s.modMeta k i g).pin = s.pin := by unfold State.modMeta; split <;> simp
@[simp] theorem State.modMeta_land (s : State) (k i : Nat) (g : Meta → Meta) : (s.modMeta k i g).land = s.land := by
  unfold State.modMeta; split <;> simp
@[simp] theorem State.modMeta_qos (s : State) (k i : Nat) (g : Meta → Meta) : (s.modMeta k i g).qos = s.qos := by unfold State.modMeta; split <;> simp
@[simp] theorem State.modMeta_chk (s : State) (k i : Nat) (g : Meta → Meta) : (s.modMeta k i g).chk = s.chk := by unfold State.modMeta; split <;> simp
@[simp] theorem State.modMeta_pwr (s : State) (k i : Nat) (g : Meta → Meta) : (s.modMeta k i g).pwr = s.pwr := by unfold State.modMeta; split <;> simp
@[simp] theorem State.modMeta_pmc (s : State) (k i : Nat) (g : Meta → Meta) : (s.modMeta k i g).pmc = s.pmc := by unfold State.modMeta; split <;> simp
@[simp] theorem State.modMeta_lnk (s : State) (k i : Nat) (g : Meta → Meta) : (s.modMeta k i g).lnk = s.lnk := by unfold State.modMeta; split <;> simp
@[simp] theorem State.modMeta_rg (s : State) (k i : Nat) (g : Meta → Meta) : (s.modMeta k i g).rg = s.rg := by unfold State.modMeta; split <;> simp
@[simp] theorem State.modMeta_tap (s : State) (k i : Nat) (g : Meta → Meta) : (s.modMeta k i g).tap = s.tap := by unfold State.modMeta; split <;> simp
@[simp] theorem State.modMeta_pending (s : State) (k i : Nat) (g : Meta → Meta) : (s.modMeta k i g).pending = s.pending := by
  unfold State.modMeta; split <;> simp

@[simp] theorem State.xfer_ring (s : State) (k a : Nat) (c : BitVec 4) (f : Fmt) : (s.xfer k a c f).ring = s.ring := by
  unfold State.xfer; split <;> simp
@[simp] theorem State.xfer_ctl (s : State) (k a : Nat) (c : BitVec 4) (f : Fmt) : (s.xfer k a c f).ctl = s.ctl := by unfold State.xfer; split <;> simp
@[simp] theorem State.xfer_cfg (s : State) (k a : Nat) (c : BitVec 4) (f : Fmt) : (s.xfer k a c f).cfg = s.cfg := by unfold State.xfer; split <;> simp
@[simp] theorem State.xfer_arr (s : State) (k a : Nat) (c : BitVec 4) (f : Fmt) : (s.xfer k a c f).arr = s.arr := by unfold State.xfer; split <;> simp
@[simp] theorem State.xfer_mp (s : State) (k a : Nat) (c : BitVec 4) (f : Fmt) : (s.xfer k a c f).mp = s.mp := by unfold State.xfer; split <;> simp
@[simp] theorem State.xfer_home (s : State) (k a : Nat) (c : BitVec 4) (f : Fmt) : (s.xfer k a c f).home = s.home := by
  unfold State.xfer; split <;> simp
@[simp] theorem State.xfer_port (s : State) (k a : Nat) (c : BitVec 4) (f : Fmt) : (s.xfer k a c f).port = s.port := by
  unfold State.xfer; split <;> simp
@[simp] theorem State.xfer_knd (s : State) (k a : Nat) (c : BitVec 4) (f : Fmt) : (s.xfer k a c f).knd = s.knd := by unfold State.xfer; split <;> simp
@[simp] theorem State.xfer_pin (s : State) (k a : Nat) (c : BitVec 4) (f : Fmt) : (s.xfer k a c f).pin = s.pin := by unfold State.xfer; split <;> simp
@[simp] theorem State.xfer_land (s : State) (k a : Nat) (c : BitVec 4) (f : Fmt) : (s.xfer k a c f).land = s.land := by
  unfold State.xfer; split <;> simp
@[simp] theorem State.xfer_chk (s : State) (k a : Nat) (c : BitVec 4) (f : Fmt) : (s.xfer k a c f).chk = s.chk := by unfold State.xfer; split <;> simp
@[simp] theorem State.xfer_lnk (s : State) (k a : Nat) (c : BitVec 4) (f : Fmt) : (s.xfer k a c f).lnk = s.lnk := by unfold State.xfer; split <;> simp
@[simp] theorem State.xfer_rg (s : State) (k a : Nat) (c : BitVec 4) (f : Fmt) : (s.xfer k a c f).rg = s.rg := by unfold State.xfer; split <;> simp
@[simp] theorem State.xfer_tap (s : State) (k a : Nat) (c : BitVec 4) (f : Fmt) : (s.xfer k a c f).tap = s.tap := by unfold State.xfer; split <;> simp
@[simp] theorem State.xfer_pending (s : State) (k a : Nat) (c : BitVec 4) (f : Fmt) : (s.xfer k a c f).pending = s.pending := by
  unfold State.xfer; split <;> simp

@[simp] theorem State.modWr_ring (s : State) (t : Nat) (f : Wr → Wr) : (s.modWr t f).ring = s.ring := rfl
@[simp] theorem State.modWr_ctl (s : State) (t : Nat) (f : Wr → Wr) : (s.modWr t f).ctl = s.ctl := rfl
@[simp] theorem State.modWr_cfg (s : State) (t : Nat) (f : Wr → Wr) : (s.modWr t f).cfg = s.cfg := rfl
@[simp] theorem State.modWr_arr (s : State) (t : Nat) (f : Wr → Wr) : (s.modWr t f).arr = s.arr := rfl
@[simp] theorem State.modWr_home (s : State) (t : Nat) (f : Wr → Wr) : (s.modWr t f).home = s.home := rfl
@[simp] theorem State.modWr_port (s : State) (t : Nat) (f : Wr → Wr) : (s.modWr t f).port = s.port := rfl
@[simp] theorem State.modWr_knd (s : State) (t : Nat) (f : Wr → Wr) : (s.modWr t f).knd = s.knd := rfl
@[simp] theorem State.modWr_pin (s : State) (t : Nat) (f : Wr → Wr) : (s.modWr t f).pin = s.pin := rfl
@[simp] theorem State.modWr_land (s : State) (t : Nat) (f : Wr → Wr) : (s.modWr t f).land = s.land := rfl
@[simp] theorem State.modWr_qos (s : State) (t : Nat) (f : Wr → Wr) : (s.modWr t f).qos = s.qos := rfl
@[simp] theorem State.modWr_chk (s : State) (t : Nat) (f : Wr → Wr) : (s.modWr t f).chk = s.chk := rfl
@[simp] theorem State.modWr_pwr (s : State) (t : Nat) (f : Wr → Wr) : (s.modWr t f).pwr = s.pwr := rfl
@[simp] theorem State.modWr_pmc (s : State) (t : Nat) (f : Wr → Wr) : (s.modWr t f).pmc = s.pmc := rfl
@[simp] theorem State.modWr_lnk (s : State) (t : Nat) (f : Wr → Wr) : (s.modWr t f).lnk = s.lnk := rfl
@[simp] theorem State.modWr_rg (s : State) (t : Nat) (f : Wr → Wr) : (s.modWr t f).rg = s.rg := rfl
@[simp] theorem State.modWr_tap (s : State) (t : Nat) (f : Wr → Wr) : (s.modWr t f).tap = s.tap := rfl
@[simp] theorem State.modWr_pending (s : State) (t : Nat) (f : Wr → Wr) : (s.modWr t f).pending = s.pending := rfl

@[simp] theorem State.send_ring (s : State) (m : Msg) : (s.send m).ring = s.ring := rfl
@[simp] theorem State.send_ctl (s : State) (m : Msg) : (s.send m).ctl = s.ctl := rfl
@[simp] theorem State.send_cfg (s : State) (m : Msg) : (s.send m).cfg = s.cfg := rfl
@[simp] theorem State.send_arr (s : State) (m : Msg) : (s.send m).arr = s.arr := rfl
@[simp] theorem State.send_mp (s : State) (m : Msg) : (s.send m).mp = s.mp := rfl
@[simp] theorem State.send_home (s : State) (m : Msg) : (s.send m).home = s.home := rfl
@[simp] theorem State.send_knd (s : State) (m : Msg) : (s.send m).knd = s.knd := rfl
@[simp] theorem State.send_pin (s : State) (m : Msg) : (s.send m).pin = s.pin := rfl
@[simp] theorem State.send_land (s : State) (m : Msg) : (s.send m).land = s.land := rfl
@[simp] theorem State.send_qos (s : State) (m : Msg) : (s.send m).qos = s.qos := rfl
@[simp] theorem State.send_chk (s : State) (m : Msg) : (s.send m).chk = s.chk := rfl
@[simp] theorem State.send_pwr (s : State) (m : Msg) : (s.send m).pwr = s.pwr := rfl
@[simp] theorem State.send_pmc (s : State) (m : Msg) : (s.send m).pmc = s.pmc := rfl
@[simp] theorem State.send_lnk (s : State) (m : Msg) : (s.send m).lnk = s.lnk := rfl
@[simp] theorem State.send_rg (s : State) (m : Msg) : (s.send m).rg = s.rg := rfl
@[simp] theorem State.send_tap (s : State) (m : Msg) : (s.send m).tap = s.tap := rfl
@[simp] theorem State.send_pending (s : State) (m : Msg) : (s.send m).pending = s.pending := rfl

@[simp] theorem State.sendRing_ring (s : State) (c : BitVec 4) (l : Option Dir) (fs : List Flit) : (s.sendRing c l fs).ring = s.ring := rfl
@[simp] theorem State.sendRing_ctl (s : State) (c : BitVec 4) (l : Option Dir) (fs : List Flit) : (s.sendRing c l fs).ctl = s.ctl := rfl
@[simp] theorem State.sendRing_cfg (s : State) (c : BitVec 4) (l : Option Dir) (fs : List Flit) : (s.sendRing c l fs).cfg = s.cfg := rfl
@[simp] theorem State.sendRing_arr (s : State) (c : BitVec 4) (l : Option Dir) (fs : List Flit) : (s.sendRing c l fs).arr = s.arr := rfl
@[simp] theorem State.sendRing_mp (s : State) (c : BitVec 4) (l : Option Dir) (fs : List Flit) : (s.sendRing c l fs).mp = s.mp := rfl
@[simp] theorem State.sendRing_home (s : State) (c : BitVec 4) (l : Option Dir) (fs : List Flit) : (s.sendRing c l fs).home = s.home := rfl
@[simp] theorem State.sendRing_knd (s : State) (c : BitVec 4) (l : Option Dir) (fs : List Flit) : (s.sendRing c l fs).knd = s.knd := rfl
@[simp] theorem State.sendRing_pin (s : State) (c : BitVec 4) (l : Option Dir) (fs : List Flit) : (s.sendRing c l fs).pin = s.pin := rfl
@[simp] theorem State.sendRing_land (s : State) (c : BitVec 4) (l : Option Dir) (fs : List Flit) : (s.sendRing c l fs).land = s.land := rfl
@[simp] theorem State.sendRing_qos (s : State) (c : BitVec 4) (l : Option Dir) (fs : List Flit) : (s.sendRing c l fs).qos = s.qos := rfl
@[simp] theorem State.sendRing_chk (s : State) (c : BitVec 4) (l : Option Dir) (fs : List Flit) : (s.sendRing c l fs).chk = s.chk := rfl
@[simp] theorem State.sendRing_pwr (s : State) (c : BitVec 4) (l : Option Dir) (fs : List Flit) : (s.sendRing c l fs).pwr = s.pwr := rfl
@[simp] theorem State.sendRing_pmc (s : State) (c : BitVec 4) (l : Option Dir) (fs : List Flit) : (s.sendRing c l fs).pmc = s.pmc := rfl
@[simp] theorem State.sendRing_lnk (s : State) (c : BitVec 4) (l : Option Dir) (fs : List Flit) : (s.sendRing c l fs).lnk = s.lnk := rfl
@[simp] theorem State.sendRing_rg (s : State) (c : BitVec 4) (l : Option Dir) (fs : List Flit) : (s.sendRing c l fs).rg = s.rg := rfl
@[simp] theorem State.sendRing_tap (s : State) (c : BitVec 4) (l : Option Dir) (fs : List Flit) : (s.sendRing c l fs).tap = s.tap := rfl
@[simp] theorem State.sendRing_pending (s : State) (c : BitVec 4) (l : Option Dir) (fs : List Flit) : (s.sendRing c l fs).pending = s.pending := rfl

@[simp] theorem State.relayRing_ring (s : State) (c : BitVec 4) (l : Option Dir) (fs : List Flit) : (s.relayRing c l fs).ring = s.ring := rfl
@[simp] theorem State.relayRing_ctl (s : State) (c : BitVec 4) (l : Option Dir) (fs : List Flit) : (s.relayRing c l fs).ctl = s.ctl := rfl
@[simp] theorem State.relayRing_cfg (s : State) (c : BitVec 4) (l : Option Dir) (fs : List Flit) : (s.relayRing c l fs).cfg = s.cfg := rfl
@[simp] theorem State.relayRing_arr (s : State) (c : BitVec 4) (l : Option Dir) (fs : List Flit) : (s.relayRing c l fs).arr = s.arr := rfl
@[simp] theorem State.relayRing_mp (s : State) (c : BitVec 4) (l : Option Dir) (fs : List Flit) : (s.relayRing c l fs).mp = s.mp := rfl
@[simp] theorem State.relayRing_home (s : State) (c : BitVec 4) (l : Option Dir) (fs : List Flit) : (s.relayRing c l fs).home = s.home := rfl
@[simp] theorem State.relayRing_knd (s : State) (c : BitVec 4) (l : Option Dir) (fs : List Flit) : (s.relayRing c l fs).knd = s.knd := rfl
@[simp] theorem State.relayRing_pin (s : State) (c : BitVec 4) (l : Option Dir) (fs : List Flit) : (s.relayRing c l fs).pin = s.pin := rfl
@[simp] theorem State.relayRing_land (s : State) (c : BitVec 4) (l : Option Dir) (fs : List Flit) : (s.relayRing c l fs).land = s.land := rfl
@[simp] theorem State.relayRing_qos (s : State) (c : BitVec 4) (l : Option Dir) (fs : List Flit) : (s.relayRing c l fs).qos = s.qos := rfl
@[simp] theorem State.relayRing_chk (s : State) (c : BitVec 4) (l : Option Dir) (fs : List Flit) : (s.relayRing c l fs).chk = s.chk := rfl
@[simp] theorem State.relayRing_pwr (s : State) (c : BitVec 4) (l : Option Dir) (fs : List Flit) : (s.relayRing c l fs).pwr = s.pwr := rfl
@[simp] theorem State.relayRing_pmc (s : State) (c : BitVec 4) (l : Option Dir) (fs : List Flit) : (s.relayRing c l fs).pmc = s.pmc := rfl
@[simp] theorem State.relayRing_lnk (s : State) (c : BitVec 4) (l : Option Dir) (fs : List Flit) : (s.relayRing c l fs).lnk = s.lnk := rfl
@[simp] theorem State.relayRing_rg (s : State) (c : BitVec 4) (l : Option Dir) (fs : List Flit) : (s.relayRing c l fs).rg = s.rg := rfl
@[simp] theorem State.relayRing_tap (s : State) (c : BitVec 4) (l : Option Dir) (fs : List Flit) : (s.relayRing c l fs).tap = s.tap := rfl
@[simp] theorem State.relayRing_pending (s : State) (c : BitVec 4) (l : Option Dir) (fs : List Flit) : (s.relayRing c l fs).pending = s.pending := rfl

@[simp] theorem State.setNear_ring (s : State) (n : Near) (p : NPort) : (s.setNear n p).ring = s.ring := by unfold State.setNear; split <;> simp
@[simp] theorem State.setNear_ctl (s : State) (n : Near) (p : NPort) : (s.setNear n p).ctl = s.ctl := by unfold State.setNear; split <;> simp
@[simp] theorem State.setNear_cfg (s : State) (n : Near) (p : NPort) : (s.setNear n p).cfg = s.cfg := by unfold State.setNear; split <;> simp
@[simp] theorem State.setNear_arr (s : State) (n : Near) (p : NPort) : (s.setNear n p).arr = s.arr := by unfold State.setNear; split <;> simp
@[simp] theorem State.setNear_mp (s : State) (n : Near) (p : NPort) : (s.setNear n p).mp = s.mp := by unfold State.setNear; split <;> simp
@[simp] theorem State.setNear_home (s : State) (n : Near) (p : NPort) : (s.setNear n p).home = s.home := by unfold State.setNear; split <;> simp
@[simp] theorem State.setNear_knd (s : State) (n : Near) (p : NPort) : (s.setNear n p).knd = s.knd := by unfold State.setNear; split <;> simp
@[simp] theorem State.setNear_pin (s : State) (n : Near) (p : NPort) : (s.setNear n p).pin = s.pin := by unfold State.setNear; split <;> simp
@[simp] theorem State.setNear_land (s : State) (n : Near) (p : NPort) : (s.setNear n p).land = s.land := by unfold State.setNear; split <;> simp
@[simp] theorem State.setNear_qos (s : State) (n : Near) (p : NPort) : (s.setNear n p).qos = s.qos := by unfold State.setNear; split <;> simp
@[simp] theorem State.setNear_chk (s : State) (n : Near) (p : NPort) : (s.setNear n p).chk = s.chk := by unfold State.setNear; split <;> simp
@[simp] theorem State.setNear_pwr (s : State) (n : Near) (p : NPort) : (s.setNear n p).pwr = s.pwr := by unfold State.setNear; split <;> simp
@[simp] theorem State.setNear_pmc (s : State) (n : Near) (p : NPort) : (s.setNear n p).pmc = s.pmc := by unfold State.setNear; split <;> simp
@[simp] theorem State.setNear_lnk (s : State) (n : Near) (p : NPort) : (s.setNear n p).lnk = s.lnk := by unfold State.setNear; split <;> simp
@[simp] theorem State.setNear_rg (s : State) (n : Near) (p : NPort) : (s.setNear n p).rg = s.rg := by unfold State.setNear; split <;> simp
@[simp] theorem State.setNear_tap (s : State) (n : Near) (p : NPort) : (s.setNear n p).tap = s.tap := by unfold State.setNear; split <;> simp
@[simp] theorem State.setNear_pending (s : State) (n : Near) (p : NPort) : (s.setNear n p).pending = s.pending := by
  unfold State.setNear; split <;> simp

@[simp] theorem State.setLink_ring (s : State) (d : Dir) (l : Link) : (s.setLink d l).ring = s.ring := by unfold State.setLink; split <;> simp
@[simp] theorem State.setLink_ctl (s : State) (d : Dir) (l : Link) : (s.setLink d l).ctl = s.ctl := by unfold State.setLink; split <;> simp
@[simp] theorem State.setLink_cfg (s : State) (d : Dir) (l : Link) : (s.setLink d l).cfg = s.cfg := by unfold State.setLink; split <;> simp
@[simp] theorem State.setLink_arr (s : State) (d : Dir) (l : Link) : (s.setLink d l).arr = s.arr := by unfold State.setLink; split <;> simp
@[simp] theorem State.setLink_mp (s : State) (d : Dir) (l : Link) : (s.setLink d l).mp = s.mp := by unfold State.setLink; split <;> simp
@[simp] theorem State.setLink_home (s : State) (d : Dir) (l : Link) : (s.setLink d l).home = s.home := by unfold State.setLink; split <;> simp
@[simp] theorem State.setLink_knd (s : State) (d : Dir) (l : Link) : (s.setLink d l).knd = s.knd := by unfold State.setLink; split <;> simp
@[simp] theorem State.setLink_pin (s : State) (d : Dir) (l : Link) : (s.setLink d l).pin = s.pin := by unfold State.setLink; split <;> simp
@[simp] theorem State.setLink_land (s : State) (d : Dir) (l : Link) : (s.setLink d l).land = s.land := by unfold State.setLink; split <;> simp
@[simp] theorem State.setLink_qos (s : State) (d : Dir) (l : Link) : (s.setLink d l).qos = s.qos := by unfold State.setLink; split <;> simp
@[simp] theorem State.setLink_chk (s : State) (d : Dir) (l : Link) : (s.setLink d l).chk = s.chk := by unfold State.setLink; split <;> simp
@[simp] theorem State.setLink_pwr (s : State) (d : Dir) (l : Link) : (s.setLink d l).pwr = s.pwr := by unfold State.setLink; split <;> simp
@[simp] theorem State.setLink_pmc (s : State) (d : Dir) (l : Link) : (s.setLink d l).pmc = s.pmc := by unfold State.setLink; split <;> simp
@[simp] theorem State.setLink_lnk (s : State) (d : Dir) (l : Link) : (s.setLink d l).lnk = s.lnk := by unfold State.setLink; split <;> simp
@[simp] theorem State.setLink_rg (s : State) (d : Dir) (l : Link) : (s.setLink d l).rg = s.rg := by unfold State.setLink; split <;> simp
@[simp] theorem State.setLink_tap (s : State) (d : Dir) (l : Link) : (s.setLink d l).tap = s.tap := by unfold State.setLink; split <;> simp
@[simp] theorem State.setLink_pending (s : State) (d : Dir) (l : Link) : (s.setLink d l).pending = s.pending := by
  unfold State.setLink; split <;> simp

@[simp] theorem State.codeEvent_ring (s : State) (c : BitVec 4) : (s.codeEvent c).ring = s.ring := by unfold State.codeEvent; split <;> simp
@[simp] theorem State.codeEvent_ctl (s : State) (c : BitVec 4) : (s.codeEvent c).ctl = s.ctl := by unfold State.codeEvent; split <;> simp
@[simp] theorem State.codeEvent_cfg (s : State) (c : BitVec 4) : (s.codeEvent c).cfg = s.cfg := by unfold State.codeEvent; split <;> simp
@[simp] theorem State.codeEvent_arr (s : State) (c : BitVec 4) : (s.codeEvent c).arr = s.arr := by unfold State.codeEvent; split <;> simp
@[simp] theorem State.codeEvent_mp (s : State) (c : BitVec 4) : (s.codeEvent c).mp = s.mp := by unfold State.codeEvent; split <;> simp
@[simp] theorem State.codeEvent_home (s : State) (c : BitVec 4) : (s.codeEvent c).home = s.home := by unfold State.codeEvent; split <;> simp
@[simp] theorem State.codeEvent_port (s : State) (c : BitVec 4) : (s.codeEvent c).port = s.port := by unfold State.codeEvent; split <;> simp
@[simp] theorem State.codeEvent_knd (s : State) (c : BitVec 4) : (s.codeEvent c).knd = s.knd := by unfold State.codeEvent; split <;> simp
@[simp] theorem State.codeEvent_pin (s : State) (c : BitVec 4) : (s.codeEvent c).pin = s.pin := by unfold State.codeEvent; split <;> simp
@[simp] theorem State.codeEvent_land (s : State) (c : BitVec 4) : (s.codeEvent c).land = s.land := by unfold State.codeEvent; split <;> simp
@[simp] theorem State.codeEvent_qos (s : State) (c : BitVec 4) : (s.codeEvent c).qos = s.qos := by unfold State.codeEvent; split <;> simp
@[simp] theorem State.codeEvent_chk (s : State) (c : BitVec 4) : (s.codeEvent c).chk = s.chk := by unfold State.codeEvent; split <;> simp
@[simp] theorem State.codeEvent_pwr (s : State) (c : BitVec 4) : (s.codeEvent c).pwr = s.pwr := by unfold State.codeEvent; split <;> simp
@[simp] theorem State.codeEvent_lnk (s : State) (c : BitVec 4) : (s.codeEvent c).lnk = s.lnk := by unfold State.codeEvent; split <;> simp
@[simp] theorem State.codeEvent_rg (s : State) (c : BitVec 4) : (s.codeEvent c).rg = s.rg := by unfold State.codeEvent; split <;> simp
@[simp] theorem State.codeEvent_tap (s : State) (c : BitVec 4) : (s.codeEvent c).tap = s.tap := by unfold State.codeEvent; split <;> simp
@[simp] theorem State.codeEvent_pending (s : State) (c : BitVec 4) : (s.codeEvent c).pending = s.pending := by unfold State.codeEvent; split <;> simp

@[simp] theorem State.setLand_ring (s : State) (g : Nat) (e : Land) : (s.setLand g e).ring = s.ring := rfl
@[simp] theorem State.setLand_ctl (s : State) (g : Nat) (e : Land) : (s.setLand g e).ctl = s.ctl := rfl
@[simp] theorem State.setLand_cfg (s : State) (g : Nat) (e : Land) : (s.setLand g e).cfg = s.cfg := rfl
@[simp] theorem State.setLand_arr (s : State) (g : Nat) (e : Land) : (s.setLand g e).arr = s.arr := rfl
@[simp] theorem State.setLand_mp (s : State) (g : Nat) (e : Land) : (s.setLand g e).mp = s.mp := rfl
@[simp] theorem State.setLand_home (s : State) (g : Nat) (e : Land) : (s.setLand g e).home = s.home := rfl
@[simp] theorem State.setLand_port (s : State) (g : Nat) (e : Land) : (s.setLand g e).port = s.port := rfl
@[simp] theorem State.setLand_knd (s : State) (g : Nat) (e : Land) : (s.setLand g e).knd = s.knd := rfl
@[simp] theorem State.setLand_pin (s : State) (g : Nat) (e : Land) : (s.setLand g e).pin = s.pin := rfl
@[simp] theorem State.setLand_qos (s : State) (g : Nat) (e : Land) : (s.setLand g e).qos = s.qos := rfl
@[simp] theorem State.setLand_chk (s : State) (g : Nat) (e : Land) : (s.setLand g e).chk = s.chk := rfl
@[simp] theorem State.setLand_pwr (s : State) (g : Nat) (e : Land) : (s.setLand g e).pwr = s.pwr := rfl
@[simp] theorem State.setLand_pmc (s : State) (g : Nat) (e : Land) : (s.setLand g e).pmc = s.pmc := rfl
@[simp] theorem State.setLand_lnk (s : State) (g : Nat) (e : Land) : (s.setLand g e).lnk = s.lnk := rfl
@[simp] theorem State.setLand_rg (s : State) (g : Nat) (e : Land) : (s.setLand g e).rg = s.rg := rfl
@[simp] theorem State.setLand_tap (s : State) (g : Nat) (e : Land) : (s.setLand g e).tap = s.tap := rfl
@[simp] theorem State.setLand_pending (s : State) (g : Nat) (e : Land) : (s.setLand g e).pending = s.pending := rfl

@[simp] theorem State.sendReq_ring (s : State) (c : BitVec 4) (q : Flit) (p : List Flit) : (s.sendReq c q p).ring = s.ring := rfl
@[simp] theorem State.sendReq_ctl (s : State) (c : BitVec 4) (q : Flit) (p : List Flit) : (s.sendReq c q p).ctl = s.ctl := rfl
@[simp] theorem State.sendReq_cfg (s : State) (c : BitVec 4) (q : Flit) (p : List Flit) : (s.sendReq c q p).cfg = s.cfg := rfl
@[simp] theorem State.sendReq_arr (s : State) (c : BitVec 4) (q : Flit) (p : List Flit) : (s.sendReq c q p).arr = s.arr := rfl
@[simp] theorem State.sendReq_mp (s : State) (c : BitVec 4) (q : Flit) (p : List Flit) : (s.sendReq c q p).mp = s.mp := rfl
@[simp] theorem State.sendReq_home (s : State) (c : BitVec 4) (q : Flit) (p : List Flit) : (s.sendReq c q p).home = s.home := rfl
@[simp] theorem State.sendReq_knd (s : State) (c : BitVec 4) (q : Flit) (p : List Flit) : (s.sendReq c q p).knd = s.knd := rfl
@[simp] theorem State.sendReq_pin (s : State) (c : BitVec 4) (q : Flit) (p : List Flit) : (s.sendReq c q p).pin = s.pin := rfl
@[simp] theorem State.sendReq_qos (s : State) (c : BitVec 4) (q : Flit) (p : List Flit) : (s.sendReq c q p).qos = s.qos := rfl
@[simp] theorem State.sendReq_chk (s : State) (c : BitVec 4) (q : Flit) (p : List Flit) : (s.sendReq c q p).chk = s.chk := rfl
@[simp] theorem State.sendReq_pwr (s : State) (c : BitVec 4) (q : Flit) (p : List Flit) : (s.sendReq c q p).pwr = s.pwr := rfl
@[simp] theorem State.sendReq_lnk (s : State) (c : BitVec 4) (q : Flit) (p : List Flit) : (s.sendReq c q p).lnk = s.lnk := rfl
@[simp] theorem State.sendReq_rg (s : State) (c : BitVec 4) (q : Flit) (p : List Flit) : (s.sendReq c q p).rg = s.rg := rfl
@[simp] theorem State.sendReq_tap (s : State) (c : BitVec 4) (q : Flit) (p : List Flit) : (s.sendReq c q p).tap = s.tap := rfl
@[simp] theorem State.sendReq_pending (s : State) (c : BitVec 4) (q : Flit) (p : List Flit) : (s.sendReq c q p).pending = s.pending := rfl

@[simp] theorem State.tallySend_ring (s : State) (g t : Nat) (k : BitVec 64) (r : Bool) : (s.tallySend g t k r).ring = s.ring := by
  unfold State.tallySend; dsimp only; split <;> simp
@[simp] theorem State.tallySend_ctl (s : State) (g t : Nat) (k : BitVec 64) (r : Bool) : (s.tallySend g t k r).ctl = s.ctl := by
  unfold State.tallySend; dsimp only; split <;> simp
@[simp] theorem State.tallySend_cfg (s : State) (g t : Nat) (k : BitVec 64) (r : Bool) : (s.tallySend g t k r).cfg = s.cfg := by
  unfold State.tallySend; dsimp only; split <;> simp
@[simp] theorem State.tallySend_arr (s : State) (g t : Nat) (k : BitVec 64) (r : Bool) : (s.tallySend g t k r).arr = s.arr := by
  unfold State.tallySend; dsimp only; split <;> simp
@[simp] theorem State.tallySend_mp (s : State) (g t : Nat) (k : BitVec 64) (r : Bool) : (s.tallySend g t k r).mp = s.mp := by
  unfold State.tallySend; dsimp only; split <;> simp
@[simp] theorem State.tallySend_home (s : State) (g t : Nat) (k : BitVec 64) (r : Bool) : (s.tallySend g t k r).home = s.home := by
  unfold State.tallySend; dsimp only; split <;> simp
@[simp] theorem State.tallySend_knd (s : State) (g t : Nat) (k : BitVec 64) (r : Bool) : (s.tallySend g t k r).knd = s.knd := by
  unfold State.tallySend; dsimp only; split <;> simp
@[simp] theorem State.tallySend_pin (s : State) (g t : Nat) (k : BitVec 64) (r : Bool) : (s.tallySend g t k r).pin = s.pin := by
  unfold State.tallySend; dsimp only; split <;> simp
@[simp] theorem State.tallySend_qos (s : State) (g t : Nat) (k : BitVec 64) (r : Bool) : (s.tallySend g t k r).qos = s.qos := by
  unfold State.tallySend; dsimp only; split <;> simp
@[simp] theorem State.tallySend_chk (s : State) (g t : Nat) (k : BitVec 64) (r : Bool) : (s.tallySend g t k r).chk = s.chk := by
  unfold State.tallySend; dsimp only; split <;> simp
@[simp] theorem State.tallySend_pwr (s : State) (g t : Nat) (k : BitVec 64) (r : Bool) : (s.tallySend g t k r).pwr = s.pwr := by
  unfold State.tallySend; dsimp only; split <;> simp
@[simp] theorem State.tallySend_lnk (s : State) (g t : Nat) (k : BitVec 64) (r : Bool) : (s.tallySend g t k r).lnk = s.lnk := by
  unfold State.tallySend; dsimp only; split <;> simp
@[simp] theorem State.tallySend_rg (s : State) (g t : Nat) (k : BitVec 64) (r : Bool) : (s.tallySend g t k r).rg = s.rg := by
  unfold State.tallySend; dsimp only; split <;> simp
@[simp] theorem State.tallySend_tap (s : State) (g t : Nat) (k : BitVec 64) (r : Bool) : (s.tallySend g t k r).tap = s.tap := by
  unfold State.tallySend; dsimp only; split <;> simp
@[simp] theorem State.tallySend_pending (s : State) (g t : Nat) (k : BitVec 64) (r : Bool) : (s.tallySend g t k r).pending = s.pending := by
  unfold State.tallySend; dsimp only; split <;> simp

@[simp] theorem State.tallyAdd_ring (s : State) (g : Nat) : (s.tallyAdd g).ring = s.ring := by
  unfold State.tallyAdd; dsimp only; split <;> (try split) <;> simp
@[simp] theorem State.tallyAdd_ctl (s : State) (g : Nat) : (s.tallyAdd g).ctl = s.ctl := by
  unfold State.tallyAdd; dsimp only; split <;> (try split) <;> simp
@[simp] theorem State.tallyAdd_cfg (s : State) (g : Nat) : (s.tallyAdd g).cfg = s.cfg := by
  unfold State.tallyAdd; dsimp only; split <;> (try split) <;> simp
@[simp] theorem State.tallyAdd_arr (s : State) (g : Nat) : (s.tallyAdd g).arr = s.arr := by
  unfold State.tallyAdd; dsimp only; split <;> (try split) <;> simp
@[simp] theorem State.tallyAdd_mp (s : State) (g : Nat) : (s.tallyAdd g).mp = s.mp := by
  unfold State.tallyAdd; dsimp only; split <;> (try split) <;> simp
@[simp] theorem State.tallyAdd_home (s : State) (g : Nat) : (s.tallyAdd g).home = s.home := by
  unfold State.tallyAdd; dsimp only; split <;> (try split) <;> simp
@[simp] theorem State.tallyAdd_knd (s : State) (g : Nat) : (s.tallyAdd g).knd = s.knd := by
  unfold State.tallyAdd; dsimp only; split <;> (try split) <;> simp
@[simp] theorem State.tallyAdd_pin (s : State) (g : Nat) : (s.tallyAdd g).pin = s.pin := by
  unfold State.tallyAdd; dsimp only; split <;> (try split) <;> simp
@[simp] theorem State.tallyAdd_qos (s : State) (g : Nat) : (s.tallyAdd g).qos = s.qos := by
  unfold State.tallyAdd; dsimp only; split <;> (try split) <;> simp
@[simp] theorem State.tallyAdd_chk (s : State) (g : Nat) : (s.tallyAdd g).chk = s.chk := by
  unfold State.tallyAdd; dsimp only; split <;> (try split) <;> simp
@[simp] theorem State.tallyAdd_pwr (s : State) (g : Nat) : (s.tallyAdd g).pwr = s.pwr := by
  unfold State.tallyAdd; dsimp only; split <;> (try split) <;> simp
@[simp] theorem State.tallyAdd_lnk (s : State) (g : Nat) : (s.tallyAdd g).lnk = s.lnk := by
  unfold State.tallyAdd; dsimp only; split <;> (try split) <;> simp
@[simp] theorem State.tallyAdd_rg (s : State) (g : Nat) : (s.tallyAdd g).rg = s.rg := by
  unfold State.tallyAdd; dsimp only; split <;> (try split) <;> simp
@[simp] theorem State.tallyAdd_tap (s : State) (g : Nat) : (s.tallyAdd g).tap = s.tap := by
  unfold State.tallyAdd; dsimp only; split <;> (try split) <;> simp
@[simp] theorem State.tallyAdd_pending (s : State) (g : Nat) : (s.tallyAdd g).pending = s.pending := by
  unfold State.tallyAdd; dsimp only; split <;> (try split) <;> simp

@[simp] theorem State.landed_ring (s : State) (r : Req) : (s.landed r).ring = s.ring := by
  unfold State.landed; dsimp only; split <;> (try split) <;> simp
@[simp] theorem State.landed_ctl (s : State) (r : Req) : (s.landed r).ctl = s.ctl := by
  unfold State.landed; dsimp only; split <;> (try split) <;> simp
@[simp] theorem State.landed_cfg (s : State) (r : Req) : (s.landed r).cfg = s.cfg := by
  unfold State.landed; dsimp only; split <;> (try split) <;> simp
@[simp] theorem State.landed_arr (s : State) (r : Req) : (s.landed r).arr = s.arr := by
  unfold State.landed; dsimp only; split <;> (try split) <;> simp
@[simp] theorem State.landed_mp (s : State) (r : Req) : (s.landed r).mp = s.mp := by
  unfold State.landed; dsimp only; split <;> (try split) <;> simp
@[simp] theorem State.landed_home (s : State) (r : Req) : (s.landed r).home = s.home := by
  unfold State.landed; dsimp only; split <;> (try split) <;> simp
@[simp] theorem State.landed_knd (s : State) (r : Req) : (s.landed r).knd = s.knd := by
  unfold State.landed; dsimp only; split <;> (try split) <;> simp
@[simp] theorem State.landed_pin (s : State) (r : Req) : (s.landed r).pin = s.pin := by
  unfold State.landed; dsimp only; split <;> (try split) <;> simp
@[simp] theorem State.landed_qos (s : State) (r : Req) : (s.landed r).qos = s.qos := by
  unfold State.landed; dsimp only; split <;> (try split) <;> simp
@[simp] theorem State.landed_chk (s : State) (r : Req) : (s.landed r).chk = s.chk := by
  unfold State.landed; dsimp only; split <;> (try split) <;> simp
@[simp] theorem State.landed_pwr (s : State) (r : Req) : (s.landed r).pwr = s.pwr := by
  unfold State.landed; dsimp only; split <;> (try split) <;> simp
@[simp] theorem State.landed_lnk (s : State) (r : Req) : (s.landed r).lnk = s.lnk := by
  unfold State.landed; dsimp only; split <;> (try split) <;> simp
@[simp] theorem State.landed_rg (s : State) (r : Req) : (s.landed r).rg = s.rg := by
  unfold State.landed; dsimp only; split <;> (try split) <;> simp
@[simp] theorem State.landed_tap (s : State) (r : Req) : (s.landed r).tap = s.tap := by
  unfold State.landed; dsimp only; split <;> (try split) <;> simp
@[simp] theorem State.landed_pending (s : State) (r : Req) : (s.landed r).pending = s.pending := by
  unfold State.landed; dsimp only; split <;> (try split) <;> simp

@[simp] theorem State.writeDone_ring (s : State) (r : Req) : (s.writeDone r).ring = s.ring := by
  unfold State.writeDone; dsimp only; split <;> simp
@[simp] theorem State.writeDone_ctl (s : State) (r : Req) : (s.writeDone r).ctl = s.ctl := by
  unfold State.writeDone; dsimp only; split <;> simp
@[simp] theorem State.writeDone_cfg (s : State) (r : Req) : (s.writeDone r).cfg = s.cfg := by
  unfold State.writeDone; dsimp only; split <;> simp
@[simp] theorem State.writeDone_arr (s : State) (r : Req) : (s.writeDone r).arr = s.arr := by
  unfold State.writeDone; dsimp only; split <;> simp
@[simp] theorem State.writeDone_mp (s : State) (r : Req) : (s.writeDone r).mp = s.mp := by
  unfold State.writeDone; dsimp only; split <;> simp
@[simp] theorem State.writeDone_home (s : State) (r : Req) : (s.writeDone r).home = s.home := by
  unfold State.writeDone; dsimp only; split <;> simp
@[simp] theorem State.writeDone_knd (s : State) (r : Req) : (s.writeDone r).knd = s.knd := by
  unfold State.writeDone; dsimp only; split <;> simp
@[simp] theorem State.writeDone_pin (s : State) (r : Req) : (s.writeDone r).pin = s.pin := by
  unfold State.writeDone; dsimp only; split <;> simp
@[simp] theorem State.writeDone_qos (s : State) (r : Req) : (s.writeDone r).qos = s.qos := by
  unfold State.writeDone; dsimp only; split <;> simp
@[simp] theorem State.writeDone_chk (s : State) (r : Req) : (s.writeDone r).chk = s.chk := by
  unfold State.writeDone; dsimp only; split <;> simp
@[simp] theorem State.writeDone_pwr (s : State) (r : Req) : (s.writeDone r).pwr = s.pwr := by
  unfold State.writeDone; dsimp only; split <;> simp
@[simp] theorem State.writeDone_lnk (s : State) (r : Req) : (s.writeDone r).lnk = s.lnk := by
  unfold State.writeDone; dsimp only; split <;> simp
@[simp] theorem State.writeDone_rg (s : State) (r : Req) : (s.writeDone r).rg = s.rg := by
  unfold State.writeDone; dsimp only; split <;> simp
@[simp] theorem State.writeDone_tap (s : State) (r : Req) : (s.writeDone r).tap = s.tap := by
  unfold State.writeDone; dsimp only; split <;> simp
@[simp] theorem State.writeDone_pending (s : State) (r : Req) : (s.writeDone r).pending = s.pending := by
  unfold State.writeDone; dsimp only; split <;> simp
@[simp] theorem State.writeDone_port (s : State) (r : Req) : (s.writeDone r).port = s.port := by
  unfold State.writeDone; dsimp only; split <;> simp
@[simp] theorem State.writeDone_pmc (s : State) (r : Req) : (s.writeDone r).pmc = s.pmc := by
  unfold State.writeDone; dsimp only; split <;> simp

@[simp] theorem State.complete_ring (s : State) (c : Comp) : (s.complete c).ring = s.ring := by
  unfold State.complete; dsimp only; split <;> (try split) <;> split <;> (try split) <;> simp
@[simp] theorem State.complete_ctl (s : State) (c : Comp) : (s.complete c).ctl = s.ctl := by
  unfold State.complete; dsimp only; split <;> (try split) <;> split <;> (try split) <;> simp
@[simp] theorem State.complete_cfg (s : State) (c : Comp) : (s.complete c).cfg = s.cfg := by
  unfold State.complete; dsimp only; split <;> (try split) <;> split <;> (try split) <;> simp
@[simp] theorem State.complete_arr (s : State) (c : Comp) : (s.complete c).arr = s.arr := by
  unfold State.complete; dsimp only; split <;> (try split) <;> split <;> (try split) <;> simp
@[simp] theorem State.complete_mp (s : State) (c : Comp) : (s.complete c).mp = s.mp := by
  unfold State.complete; dsimp only; split <;> (try split) <;> split <;> (try split) <;> simp
@[simp] theorem State.complete_home (s : State) (c : Comp) : (s.complete c).home = s.home := by
  unfold State.complete; dsimp only; split <;> (try split) <;> split <;> (try split) <;> simp
@[simp] theorem State.complete_knd (s : State) (c : Comp) : (s.complete c).knd = s.knd := by
  unfold State.complete; dsimp only; split <;> (try split) <;> split <;> (try split) <;> simp
@[simp] theorem State.complete_pin (s : State) (c : Comp) : (s.complete c).pin = s.pin := by
  unfold State.complete; dsimp only; split <;> (try split) <;> split <;> (try split) <;> simp
@[simp] theorem State.complete_qos (s : State) (c : Comp) : (s.complete c).qos = s.qos := by
  unfold State.complete; dsimp only; split <;> (try split) <;> split <;> (try split) <;> simp
@[simp] theorem State.complete_pwr (s : State) (c : Comp) : (s.complete c).pwr = s.pwr := by
  unfold State.complete; dsimp only; split <;> (try split) <;> split <;> (try split) <;> simp
@[simp] theorem State.complete_lnk (s : State) (c : Comp) : (s.complete c).lnk = s.lnk := by
  unfold State.complete; dsimp only; split <;> (try split) <;> split <;> (try split) <;> simp
@[simp] theorem State.complete_rg (s : State) (c : Comp) : (s.complete c).rg = s.rg := by
  unfold State.complete; dsimp only; split <;> (try split) <;> split <;> (try split) <;> simp
@[simp] theorem State.complete_tap (s : State) (c : Comp) : (s.complete c).tap = s.tap := by
  unfold State.complete; dsimp only; split <;> (try split) <;> split <;> (try split) <;> simp
@[simp] theorem State.complete_pending (s : State) (c : Comp) : (s.complete c).pending = s.pending := by
  unfold State.complete; dsimp only; split <;> (try split) <;> split <;> (try split) <;> simp

@[simp] theorem State.answer_ring (s : State) (r : Req) (c : BitVec 4) : (s.answer r c).ring = s.ring := by simp [State.answer]
@[simp] theorem State.answer_ctl (s : State) (r : Req) (c : BitVec 4) : (s.answer r c).ctl = s.ctl := by simp [State.answer]
@[simp] theorem State.answer_cfg (s : State) (r : Req) (c : BitVec 4) : (s.answer r c).cfg = s.cfg := by simp [State.answer]
@[simp] theorem State.answer_arr (s : State) (r : Req) (c : BitVec 4) : (s.answer r c).arr = s.arr := by simp [State.answer]
@[simp] theorem State.answer_mp (s : State) (r : Req) (c : BitVec 4) : (s.answer r c).mp = s.mp := by simp [State.answer]
@[simp] theorem State.answer_home (s : State) (r : Req) (c : BitVec 4) : (s.answer r c).home = s.home := by simp [State.answer]
@[simp] theorem State.answer_knd (s : State) (r : Req) (c : BitVec 4) : (s.answer r c).knd = s.knd := by simp [State.answer]
@[simp] theorem State.answer_pin (s : State) (r : Req) (c : BitVec 4) : (s.answer r c).pin = s.pin := by simp [State.answer]
@[simp] theorem State.answer_qos (s : State) (r : Req) (c : BitVec 4) : (s.answer r c).qos = s.qos := by simp [State.answer]
@[simp] theorem State.answer_pwr (s : State) (r : Req) (c : BitVec 4) : (s.answer r c).pwr = s.pwr := by simp [State.answer]
@[simp] theorem State.answer_lnk (s : State) (r : Req) (c : BitVec 4) : (s.answer r c).lnk = s.lnk := by simp [State.answer]
@[simp] theorem State.answer_rg (s : State) (r : Req) (c : BitVec 4) : (s.answer r c).rg = s.rg := by simp [State.answer]
@[simp] theorem State.answer_tap (s : State) (r : Req) (c : BitVec 4) : (s.answer r c).tap = s.tap := by simp [State.answer]
@[simp] theorem State.answer_pending (s : State) (r : Req) (c : BitVec 4) : (s.answer r c).pending = s.pending := by simp [State.answer]

@[simp] theorem State.tobit_ring (s : State) (i : Nat) : (s.tobit i).ring = s.ring := rfl
@[simp] theorem State.tobit_ctl (s : State) (i : Nat) : (s.tobit i).ctl = s.ctl := rfl
@[simp] theorem State.tobit_cfg (s : State) (i : Nat) : (s.tobit i).cfg = s.cfg := rfl
@[simp] theorem State.tobit_arr (s : State) (i : Nat) : (s.tobit i).arr = s.arr := rfl
@[simp] theorem State.tobit_mp (s : State) (i : Nat) : (s.tobit i).mp = s.mp := rfl
@[simp] theorem State.tobit_port (s : State) (i : Nat) : (s.tobit i).port = s.port := rfl
@[simp] theorem State.tobit_knd (s : State) (i : Nat) : (s.tobit i).knd = s.knd := rfl
@[simp] theorem State.tobit_pin (s : State) (i : Nat) : (s.tobit i).pin = s.pin := rfl
@[simp] theorem State.tobit_land (s : State) (i : Nat) : (s.tobit i).land = s.land := rfl
@[simp] theorem State.tobit_qos (s : State) (i : Nat) : (s.tobit i).qos = s.qos := rfl
@[simp] theorem State.tobit_chk (s : State) (i : Nat) : (s.tobit i).chk = s.chk := rfl
@[simp] theorem State.tobit_pwr (s : State) (i : Nat) : (s.tobit i).pwr = s.pwr := rfl
@[simp] theorem State.tobit_pmc (s : State) (i : Nat) : (s.tobit i).pmc = s.pmc := rfl
@[simp] theorem State.tobit_lnk (s : State) (i : Nat) : (s.tobit i).lnk = s.lnk := rfl
@[simp] theorem State.tobit_rg (s : State) (i : Nat) : (s.tobit i).rg = s.rg := rfl
@[simp] theorem State.tobit_tap (s : State) (i : Nat) : (s.tobit i).tap = s.tap := rfl
@[simp] theorem State.tobit_pending (s : State) (i : Nat) : (s.tobit i).pending = s.pending := rfl

@[simp] theorem State.setRx_ring (s : State) (x : Src) (r : Rx) : (s.setRx x r).ring = s.ring := by unfold State.setRx; split <;> simp
@[simp] theorem State.setRx_ctl (s : State) (x : Src) (r : Rx) : (s.setRx x r).ctl = s.ctl := by unfold State.setRx; split <;> simp
@[simp] theorem State.setRx_cfg (s : State) (x : Src) (r : Rx) : (s.setRx x r).cfg = s.cfg := by unfold State.setRx; split <;> simp
@[simp] theorem State.setRx_arr (s : State) (x : Src) (r : Rx) : (s.setRx x r).arr = s.arr := by unfold State.setRx; split <;> simp
@[simp] theorem State.setRx_mp (s : State) (x : Src) (r : Rx) : (s.setRx x r).mp = s.mp := by unfold State.setRx; split <;> simp
@[simp] theorem State.setRx_home (s : State) (x : Src) (r : Rx) : (s.setRx x r).home = s.home := by unfold State.setRx; split <;> simp
@[simp] theorem State.setRx_knd (s : State) (x : Src) (r : Rx) : (s.setRx x r).knd = s.knd := by unfold State.setRx; split <;> simp
@[simp] theorem State.setRx_pin (s : State) (x : Src) (r : Rx) : (s.setRx x r).pin = s.pin := by unfold State.setRx; split <;> simp
@[simp] theorem State.setRx_land (s : State) (x : Src) (r : Rx) : (s.setRx x r).land = s.land := by unfold State.setRx; split <;> simp
@[simp] theorem State.setRx_qos (s : State) (x : Src) (r : Rx) : (s.setRx x r).qos = s.qos := by unfold State.setRx; split <;> simp
@[simp] theorem State.setRx_chk (s : State) (x : Src) (r : Rx) : (s.setRx x r).chk = s.chk := by unfold State.setRx; split <;> simp
@[simp] theorem State.setRx_pwr (s : State) (x : Src) (r : Rx) : (s.setRx x r).pwr = s.pwr := by unfold State.setRx; split <;> simp
@[simp] theorem State.setRx_pmc (s : State) (x : Src) (r : Rx) : (s.setRx x r).pmc = s.pmc := by unfold State.setRx; split <;> simp
@[simp] theorem State.setRx_lnk (s : State) (x : Src) (r : Rx) : (s.setRx x r).lnk = s.lnk := by unfold State.setRx; split <;> simp
@[simp] theorem State.setRx_rg (s : State) (x : Src) (r : Rx) : (s.setRx x r).rg = s.rg := by unfold State.setRx; split <;> simp
@[simp] theorem State.setRx_tap (s : State) (x : Src) (r : Rx) : (s.setRx x r).tap = s.tap := by unfold State.setRx; split <;> simp
@[simp] theorem State.setRx_pending (s : State) (x : Src) (r : Rx) : (s.setRx x r).pending = s.pending := by unfold State.setRx; split <;> simp

@[simp] theorem State.owe_ring (s : State) (x : Src) (v k : Nat) : (s.owe x v k).ring = s.ring := by unfold State.owe; split <;> simp
@[simp] theorem State.owe_ctl (s : State) (x : Src) (v k : Nat) : (s.owe x v k).ctl = s.ctl := by unfold State.owe; split <;> simp
@[simp] theorem State.owe_cfg (s : State) (x : Src) (v k : Nat) : (s.owe x v k).cfg = s.cfg := by unfold State.owe; split <;> simp
@[simp] theorem State.owe_arr (s : State) (x : Src) (v k : Nat) : (s.owe x v k).arr = s.arr := by unfold State.owe; split <;> simp
@[simp] theorem State.owe_mp (s : State) (x : Src) (v k : Nat) : (s.owe x v k).mp = s.mp := by unfold State.owe; split <;> simp
@[simp] theorem State.owe_home (s : State) (x : Src) (v k : Nat) : (s.owe x v k).home = s.home := by unfold State.owe; split <;> simp
@[simp] theorem State.owe_knd (s : State) (x : Src) (v k : Nat) : (s.owe x v k).knd = s.knd := by unfold State.owe; split <;> simp
@[simp] theorem State.owe_pin (s : State) (x : Src) (v k : Nat) : (s.owe x v k).pin = s.pin := by unfold State.owe; split <;> simp
@[simp] theorem State.owe_land (s : State) (x : Src) (v k : Nat) : (s.owe x v k).land = s.land := by unfold State.owe; split <;> simp
@[simp] theorem State.owe_qos (s : State) (x : Src) (v k : Nat) : (s.owe x v k).qos = s.qos := by unfold State.owe; split <;> simp
@[simp] theorem State.owe_chk (s : State) (x : Src) (v k : Nat) : (s.owe x v k).chk = s.chk := by unfold State.owe; split <;> simp
@[simp] theorem State.owe_pwr (s : State) (x : Src) (v k : Nat) : (s.owe x v k).pwr = s.pwr := by unfold State.owe; split <;> simp
@[simp] theorem State.owe_pmc (s : State) (x : Src) (v k : Nat) : (s.owe x v k).pmc = s.pmc := by unfold State.owe; split <;> simp
@[simp] theorem State.owe_lnk (s : State) (x : Src) (v k : Nat) : (s.owe x v k).lnk = s.lnk := by unfold State.owe; split <;> simp
@[simp] theorem State.owe_rg (s : State) (x : Src) (v k : Nat) : (s.owe x v k).rg = s.rg := by unfold State.owe; split <;> simp
@[simp] theorem State.owe_tap (s : State) (x : Src) (v k : Nat) : (s.owe x v k).tap = s.tap := by unfold State.owe; split <;> simp
@[simp] theorem State.owe_pending (s : State) (x : Src) (v k : Nat) : (s.owe x v k).pending = s.pending := by unfold State.owe; split <;> simp

@[simp] theorem State.freePay_ring (s : State) (r : Req) (b : Bool) : (s.freePay r b).ring = s.ring := by simp [State.freePay]
@[simp] theorem State.freePay_ctl (s : State) (r : Req) (b : Bool) : (s.freePay r b).ctl = s.ctl := by simp [State.freePay]
@[simp] theorem State.freePay_cfg (s : State) (r : Req) (b : Bool) : (s.freePay r b).cfg = s.cfg := by simp [State.freePay]
@[simp] theorem State.freePay_arr (s : State) (r : Req) (b : Bool) : (s.freePay r b).arr = s.arr := by simp [State.freePay]
@[simp] theorem State.freePay_mp (s : State) (r : Req) (b : Bool) : (s.freePay r b).mp = s.mp := by simp [State.freePay]
@[simp] theorem State.freePay_home (s : State) (r : Req) (b : Bool) : (s.freePay r b).home = s.home := by simp [State.freePay]
@[simp] theorem State.freePay_knd (s : State) (r : Req) (b : Bool) : (s.freePay r b).knd = s.knd := by simp [State.freePay]
@[simp] theorem State.freePay_pin (s : State) (r : Req) (b : Bool) : (s.freePay r b).pin = s.pin := by simp [State.freePay]
@[simp] theorem State.freePay_land (s : State) (r : Req) (b : Bool) : (s.freePay r b).land = s.land := by simp [State.freePay]
@[simp] theorem State.freePay_qos (s : State) (r : Req) (b : Bool) : (s.freePay r b).qos = s.qos := by simp [State.freePay]
@[simp] theorem State.freePay_chk (s : State) (r : Req) (b : Bool) : (s.freePay r b).chk = s.chk := by simp [State.freePay]
@[simp] theorem State.freePay_pwr (s : State) (r : Req) (b : Bool) : (s.freePay r b).pwr = s.pwr := by simp [State.freePay]
@[simp] theorem State.freePay_pmc (s : State) (r : Req) (b : Bool) : (s.freePay r b).pmc = s.pmc := by simp [State.freePay]
@[simp] theorem State.freePay_lnk (s : State) (r : Req) (b : Bool) : (s.freePay r b).lnk = s.lnk := by simp [State.freePay]
@[simp] theorem State.freePay_rg (s : State) (r : Req) (b : Bool) : (s.freePay r b).rg = s.rg := by simp [State.freePay]
@[simp] theorem State.freePay_tap (s : State) (r : Req) (b : Bool) : (s.freePay r b).tap = s.tap := by simp [State.freePay]
@[simp] theorem State.freePay_pending (s : State) (r : Req) (b : Bool) : (s.freePay r b).pending = s.pending := by simp [State.freePay]

@[simp] theorem State.refuse_ring (s : State) (r : Req) (c : BitVec 4) : (s.refuse r c).ring = s.ring := by simp [State.refuse]; split <;> simp
@[simp] theorem State.refuse_ctl (s : State) (r : Req) (c : BitVec 4) : (s.refuse r c).ctl = s.ctl := by simp [State.refuse]; split <;> simp
@[simp] theorem State.refuse_cfg (s : State) (r : Req) (c : BitVec 4) : (s.refuse r c).cfg = s.cfg := by simp [State.refuse]; split <;> simp
@[simp] theorem State.refuse_arr (s : State) (r : Req) (c : BitVec 4) : (s.refuse r c).arr = s.arr := by simp [State.refuse]; split <;> simp
@[simp] theorem State.refuse_mp (s : State) (r : Req) (c : BitVec 4) : (s.refuse r c).mp = s.mp := by simp [State.refuse]; split <;> simp
@[simp] theorem State.refuse_home (s : State) (r : Req) (c : BitVec 4) : (s.refuse r c).home = s.home := by simp [State.refuse]; split <;> simp
@[simp] theorem State.refuse_knd (s : State) (r : Req) (c : BitVec 4) : (s.refuse r c).knd = s.knd := by simp [State.refuse]; split <;> simp
@[simp] theorem State.refuse_pin (s : State) (r : Req) (c : BitVec 4) : (s.refuse r c).pin = s.pin := by simp [State.refuse]; split <;> simp
@[simp] theorem State.refuse_qos (s : State) (r : Req) (c : BitVec 4) : (s.refuse r c).qos = s.qos := by simp [State.refuse]; split <;> simp
@[simp] theorem State.refuse_pwr (s : State) (r : Req) (c : BitVec 4) : (s.refuse r c).pwr = s.pwr := by simp [State.refuse]; split <;> simp
@[simp] theorem State.refuse_lnk (s : State) (r : Req) (c : BitVec 4) : (s.refuse r c).lnk = s.lnk := by simp [State.refuse]; split <;> simp
@[simp] theorem State.refuse_rg (s : State) (r : Req) (c : BitVec 4) : (s.refuse r c).rg = s.rg := by simp [State.refuse]; split <;> simp
@[simp] theorem State.refuse_tap (s : State) (r : Req) (c : BitVec 4) : (s.refuse r c).tap = s.tap := by simp [State.refuse]; split <;> simp
@[simp] theorem State.refuse_pending (s : State) (r : Req) (c : BitVec 4) : (s.refuse r c).pending = s.pending := by simp [State.refuse]; split <;> simp

@[simp] theorem State.lbPut_ring (s : State) (i : Nat) (e : Lb) : (s.lbPut i e).ring = s.ring := rfl
@[simp] theorem State.lbPut_ctl (s : State) (i : Nat) (e : Lb) : (s.lbPut i e).ctl = s.ctl := rfl
@[simp] theorem State.lbPut_cfg (s : State) (i : Nat) (e : Lb) : (s.lbPut i e).cfg = s.cfg := rfl
@[simp] theorem State.lbPut_arr (s : State) (i : Nat) (e : Lb) : (s.lbPut i e).arr = s.arr := rfl
@[simp] theorem State.lbPut_mp (s : State) (i : Nat) (e : Lb) : (s.lbPut i e).mp = s.mp := rfl
@[simp] theorem State.lbPut_home (s : State) (i : Nat) (e : Lb) : (s.lbPut i e).home = s.home := rfl
@[simp] theorem State.lbPut_port (s : State) (i : Nat) (e : Lb) : (s.lbPut i e).port = s.port := rfl
@[simp] theorem State.lbPut_pin (s : State) (i : Nat) (e : Lb) : (s.lbPut i e).pin = s.pin := rfl
@[simp] theorem State.lbPut_land (s : State) (i : Nat) (e : Lb) : (s.lbPut i e).land = s.land := rfl
@[simp] theorem State.lbPut_qos (s : State) (i : Nat) (e : Lb) : (s.lbPut i e).qos = s.qos := rfl
@[simp] theorem State.lbPut_chk (s : State) (i : Nat) (e : Lb) : (s.lbPut i e).chk = s.chk := rfl
@[simp] theorem State.lbPut_pwr (s : State) (i : Nat) (e : Lb) : (s.lbPut i e).pwr = s.pwr := rfl
@[simp] theorem State.lbPut_pmc (s : State) (i : Nat) (e : Lb) : (s.lbPut i e).pmc = s.pmc := rfl
@[simp] theorem State.lbPut_lnk (s : State) (i : Nat) (e : Lb) : (s.lbPut i e).lnk = s.lnk := rfl
@[simp] theorem State.lbPut_rg (s : State) (i : Nat) (e : Lb) : (s.lbPut i e).rg = s.rg := rfl
@[simp] theorem State.lbPut_tap (s : State) (i : Nat) (e : Lb) : (s.lbPut i e).tap = s.tap := rfl
@[simp] theorem State.lbPut_pending (s : State) (i : Nat) (e : Lb) : (s.lbPut i e).pending = s.pending := rfl

@[simp] theorem State.lbDel_ring (s : State) (i : Nat) : (s.lbDel i).ring = s.ring := rfl
@[simp] theorem State.lbDel_ctl (s : State) (i : Nat) : (s.lbDel i).ctl = s.ctl := rfl
@[simp] theorem State.lbDel_cfg (s : State) (i : Nat) : (s.lbDel i).cfg = s.cfg := rfl
@[simp] theorem State.lbDel_arr (s : State) (i : Nat) : (s.lbDel i).arr = s.arr := rfl
@[simp] theorem State.lbDel_mp (s : State) (i : Nat) : (s.lbDel i).mp = s.mp := rfl
@[simp] theorem State.lbDel_home (s : State) (i : Nat) : (s.lbDel i).home = s.home := rfl
@[simp] theorem State.lbDel_port (s : State) (i : Nat) : (s.lbDel i).port = s.port := rfl
@[simp] theorem State.lbDel_pin (s : State) (i : Nat) : (s.lbDel i).pin = s.pin := rfl
@[simp] theorem State.lbDel_land (s : State) (i : Nat) : (s.lbDel i).land = s.land := rfl
@[simp] theorem State.lbDel_qos (s : State) (i : Nat) : (s.lbDel i).qos = s.qos := rfl
@[simp] theorem State.lbDel_chk (s : State) (i : Nat) : (s.lbDel i).chk = s.chk := rfl
@[simp] theorem State.lbDel_pwr (s : State) (i : Nat) : (s.lbDel i).pwr = s.pwr := rfl
@[simp] theorem State.lbDel_pmc (s : State) (i : Nat) : (s.lbDel i).pmc = s.pmc := rfl
@[simp] theorem State.lbDel_lnk (s : State) (i : Nat) : (s.lbDel i).lnk = s.lnk := rfl
@[simp] theorem State.lbDel_rg (s : State) (i : Nat) : (s.lbDel i).rg = s.rg := rfl
@[simp] theorem State.lbDel_tap (s : State) (i : Nat) : (s.lbDel i).tap = s.tap := rfl
@[simp] theorem State.lbDel_pending (s : State) (i : Nat) : (s.lbDel i).pending = s.pending := rfl

@[simp] theorem State.kndRes_ring (s : State) (i : Nat) : (s.kndRes i).ring = s.ring := rfl
@[simp] theorem State.kndRes_ctl (s : State) (i : Nat) : (s.kndRes i).ctl = s.ctl := rfl
@[simp] theorem State.kndRes_cfg (s : State) (i : Nat) : (s.kndRes i).cfg = s.cfg := rfl
@[simp] theorem State.kndRes_arr (s : State) (i : Nat) : (s.kndRes i).arr = s.arr := rfl
@[simp] theorem State.kndRes_mp (s : State) (i : Nat) : (s.kndRes i).mp = s.mp := rfl
@[simp] theorem State.kndRes_home (s : State) (i : Nat) : (s.kndRes i).home = s.home := rfl
@[simp] theorem State.kndRes_port (s : State) (i : Nat) : (s.kndRes i).port = s.port := rfl
@[simp] theorem State.kndRes_pin (s : State) (i : Nat) : (s.kndRes i).pin = s.pin := rfl
@[simp] theorem State.kndRes_land (s : State) (i : Nat) : (s.kndRes i).land = s.land := rfl
@[simp] theorem State.kndRes_qos (s : State) (i : Nat) : (s.kndRes i).qos = s.qos := rfl
@[simp] theorem State.kndRes_chk (s : State) (i : Nat) : (s.kndRes i).chk = s.chk := rfl
@[simp] theorem State.kndRes_pwr (s : State) (i : Nat) : (s.kndRes i).pwr = s.pwr := rfl
@[simp] theorem State.kndRes_pmc (s : State) (i : Nat) : (s.kndRes i).pmc = s.pmc := rfl
@[simp] theorem State.kndRes_lnk (s : State) (i : Nat) : (s.kndRes i).lnk = s.lnk := rfl
@[simp] theorem State.kndRes_rg (s : State) (i : Nat) : (s.kndRes i).rg = s.rg := rfl
@[simp] theorem State.kndRes_tap (s : State) (i : Nat) : (s.kndRes i).tap = s.tap := rfl
@[simp] theorem State.kndRes_pending (s : State) (i : Nat) : (s.kndRes i).pending = s.pending := rfl

@[simp] theorem State.popRsp_ring (s : State) (x : Src) : (s.popRsp x).ring = s.ring := by simp [State.popRsp]
@[simp] theorem State.popRsp_ctl (s : State) (x : Src) : (s.popRsp x).ctl = s.ctl := by simp [State.popRsp]
@[simp] theorem State.popRsp_cfg (s : State) (x : Src) : (s.popRsp x).cfg = s.cfg := by simp [State.popRsp]
@[simp] theorem State.popRsp_arr (s : State) (x : Src) : (s.popRsp x).arr = s.arr := by simp [State.popRsp]
@[simp] theorem State.popRsp_mp (s : State) (x : Src) : (s.popRsp x).mp = s.mp := by simp [State.popRsp]
@[simp] theorem State.popRsp_home (s : State) (x : Src) : (s.popRsp x).home = s.home := by simp [State.popRsp]
@[simp] theorem State.popRsp_knd (s : State) (x : Src) : (s.popRsp x).knd = s.knd := by simp [State.popRsp]
@[simp] theorem State.popRsp_pin (s : State) (x : Src) : (s.popRsp x).pin = s.pin := by simp [State.popRsp]
@[simp] theorem State.popRsp_land (s : State) (x : Src) : (s.popRsp x).land = s.land := by simp [State.popRsp]
@[simp] theorem State.popRsp_qos (s : State) (x : Src) : (s.popRsp x).qos = s.qos := by simp [State.popRsp]
@[simp] theorem State.popRsp_chk (s : State) (x : Src) : (s.popRsp x).chk = s.chk := by simp [State.popRsp]
@[simp] theorem State.popRsp_pwr (s : State) (x : Src) : (s.popRsp x).pwr = s.pwr := by simp [State.popRsp]
@[simp] theorem State.popRsp_pmc (s : State) (x : Src) : (s.popRsp x).pmc = s.pmc := by simp [State.popRsp]
@[simp] theorem State.popRsp_lnk (s : State) (x : Src) : (s.popRsp x).lnk = s.lnk := by simp [State.popRsp]
@[simp] theorem State.popRsp_rg (s : State) (x : Src) : (s.popRsp x).rg = s.rg := by simp [State.popRsp]
@[simp] theorem State.popRsp_tap (s : State) (x : Src) : (s.popRsp x).tap = s.tap := by simp [State.popRsp]
@[simp] theorem State.popRsp_pending (s : State) (x : Src) : (s.popRsp x).pending = s.pending := by simp [State.popRsp]

@[simp] theorem State.lnkErr_ring (s : State) (i : Nat) : (s.lnkErr i).ring = s.ring := rfl
@[simp] theorem State.lnkErr_ctl (s : State) (i : Nat) : (s.lnkErr i).ctl = s.ctl := rfl
@[simp] theorem State.lnkErr_cfg (s : State) (i : Nat) : (s.lnkErr i).cfg = s.cfg := rfl
@[simp] theorem State.lnkErr_arr (s : State) (i : Nat) : (s.lnkErr i).arr = s.arr := rfl
@[simp] theorem State.lnkErr_mp (s : State) (i : Nat) : (s.lnkErr i).mp = s.mp := rfl
@[simp] theorem State.lnkErr_home (s : State) (i : Nat) : (s.lnkErr i).home = s.home := rfl
@[simp] theorem State.lnkErr_port (s : State) (i : Nat) : (s.lnkErr i).port = s.port := rfl
@[simp] theorem State.lnkErr_knd (s : State) (i : Nat) : (s.lnkErr i).knd = s.knd := rfl
@[simp] theorem State.lnkErr_pin (s : State) (i : Nat) : (s.lnkErr i).pin = s.pin := rfl
@[simp] theorem State.lnkErr_land (s : State) (i : Nat) : (s.lnkErr i).land = s.land := rfl
@[simp] theorem State.lnkErr_qos (s : State) (i : Nat) : (s.lnkErr i).qos = s.qos := rfl
@[simp] theorem State.lnkErr_chk (s : State) (i : Nat) : (s.lnkErr i).chk = s.chk := rfl
@[simp] theorem State.lnkErr_pwr (s : State) (i : Nat) : (s.lnkErr i).pwr = s.pwr := rfl
@[simp] theorem State.lnkErr_pmc (s : State) (i : Nat) : (s.lnkErr i).pmc = s.pmc := rfl
@[simp] theorem State.lnkErr_rg (s : State) (i : Nat) : (s.lnkErr i).rg = s.rg := rfl
@[simp] theorem State.lnkErr_tap (s : State) (i : Nat) : (s.lnkErr i).tap = s.tap := rfl
@[simp] theorem State.lnkErr_pending (s : State) (i : Nat) : (s.lnkErr i).pending = s.pending := rfl

@[simp] theorem State.pwrErr_ring (s : State) (i : Nat) : (s.pwrErr i).ring = s.ring := rfl
@[simp] theorem State.pwrErr_ctl (s : State) (i : Nat) : (s.pwrErr i).ctl = s.ctl := rfl
@[simp] theorem State.pwrErr_cfg (s : State) (i : Nat) : (s.pwrErr i).cfg = s.cfg := rfl
@[simp] theorem State.pwrErr_arr (s : State) (i : Nat) : (s.pwrErr i).arr = s.arr := rfl
@[simp] theorem State.pwrErr_mp (s : State) (i : Nat) : (s.pwrErr i).mp = s.mp := rfl
@[simp] theorem State.pwrErr_home (s : State) (i : Nat) : (s.pwrErr i).home = s.home := rfl
@[simp] theorem State.pwrErr_port (s : State) (i : Nat) : (s.pwrErr i).port = s.port := rfl
@[simp] theorem State.pwrErr_knd (s : State) (i : Nat) : (s.pwrErr i).knd = s.knd := rfl
@[simp] theorem State.pwrErr_pin (s : State) (i : Nat) : (s.pwrErr i).pin = s.pin := rfl
@[simp] theorem State.pwrErr_land (s : State) (i : Nat) : (s.pwrErr i).land = s.land := rfl
@[simp] theorem State.pwrErr_qos (s : State) (i : Nat) : (s.pwrErr i).qos = s.qos := rfl
@[simp] theorem State.pwrErr_chk (s : State) (i : Nat) : (s.pwrErr i).chk = s.chk := rfl
@[simp] theorem State.pwrErr_pmc (s : State) (i : Nat) : (s.pwrErr i).pmc = s.pmc := rfl
@[simp] theorem State.pwrErr_lnk (s : State) (i : Nat) : (s.pwrErr i).lnk = s.lnk := rfl
@[simp] theorem State.pwrErr_rg (s : State) (i : Nat) : (s.pwrErr i).rg = s.rg := rfl
@[simp] theorem State.pwrErr_tap (s : State) (i : Nat) : (s.pwrErr i).tap = s.tap := rfl
@[simp] theorem State.pwrErr_pending (s : State) (i : Nat) : (s.pwrErr i).pending = s.pending := rfl

@[simp] theorem State.freqAck_ring (s : State) : (s.freqAck).ring = s.ring := rfl
@[simp] theorem State.freqAck_ctl (s : State) : (s.freqAck).ctl = s.ctl := rfl
@[simp] theorem State.freqAck_cfg (s : State) : (s.freqAck).cfg = s.cfg := rfl
@[simp] theorem State.freqAck_arr (s : State) : (s.freqAck).arr = s.arr := rfl
@[simp] theorem State.freqAck_mp (s : State) : (s.freqAck).mp = s.mp := rfl
@[simp] theorem State.freqAck_home (s : State) : (s.freqAck).home = s.home := rfl
@[simp] theorem State.freqAck_port (s : State) : (s.freqAck).port = s.port := rfl
@[simp] theorem State.freqAck_knd (s : State) : (s.freqAck).knd = s.knd := rfl
@[simp] theorem State.freqAck_pin (s : State) : (s.freqAck).pin = s.pin := rfl
@[simp] theorem State.freqAck_land (s : State) : (s.freqAck).land = s.land := rfl
@[simp] theorem State.freqAck_qos (s : State) : (s.freqAck).qos = s.qos := rfl
@[simp] theorem State.freqAck_chk (s : State) : (s.freqAck).chk = s.chk := rfl
@[simp] theorem State.freqAck_pmc (s : State) : (s.freqAck).pmc = s.pmc := rfl
@[simp] theorem State.freqAck_lnk (s : State) : (s.freqAck).lnk = s.lnk := rfl
@[simp] theorem State.freqAck_rg (s : State) : (s.freqAck).rg = s.rg := rfl
@[simp] theorem State.freqAck_tap (s : State) : (s.freqAck).tap = s.tap := rfl
@[simp] theorem State.freqAck_pending (s : State) : (s.freqAck).pending = s.pending := rfl

@[simp] theorem State.sampleLat_ring (s : State) (c : BitVec 4) (l : BitVec 16) : (s.sampleLat c l).ring = s.ring := by simp [State.sampleLat]
@[simp] theorem State.sampleLat_ctl (s : State) (c : BitVec 4) (l : BitVec 16) : (s.sampleLat c l).ctl = s.ctl := by simp [State.sampleLat]
@[simp] theorem State.sampleLat_cfg (s : State) (c : BitVec 4) (l : BitVec 16) : (s.sampleLat c l).cfg = s.cfg := by simp [State.sampleLat]
@[simp] theorem State.sampleLat_arr (s : State) (c : BitVec 4) (l : BitVec 16) : (s.sampleLat c l).arr = s.arr := by simp [State.sampleLat]
@[simp] theorem State.sampleLat_mp (s : State) (c : BitVec 4) (l : BitVec 16) : (s.sampleLat c l).mp = s.mp := by simp [State.sampleLat]
@[simp] theorem State.sampleLat_home (s : State) (c : BitVec 4) (l : BitVec 16) : (s.sampleLat c l).home = s.home := by simp [State.sampleLat]
@[simp] theorem State.sampleLat_port (s : State) (c : BitVec 4) (l : BitVec 16) : (s.sampleLat c l).port = s.port := by simp [State.sampleLat]
@[simp] theorem State.sampleLat_knd (s : State) (c : BitVec 4) (l : BitVec 16) : (s.sampleLat c l).knd = s.knd := by simp [State.sampleLat]
@[simp] theorem State.sampleLat_pin (s : State) (c : BitVec 4) (l : BitVec 16) : (s.sampleLat c l).pin = s.pin := by simp [State.sampleLat]
@[simp] theorem State.sampleLat_land (s : State) (c : BitVec 4) (l : BitVec 16) : (s.sampleLat c l).land = s.land := by simp [State.sampleLat]
@[simp] theorem State.sampleLat_chk (s : State) (c : BitVec 4) (l : BitVec 16) : (s.sampleLat c l).chk = s.chk := by simp [State.sampleLat]
@[simp] theorem State.sampleLat_pwr (s : State) (c : BitVec 4) (l : BitVec 16) : (s.sampleLat c l).pwr = s.pwr := by simp [State.sampleLat]
@[simp] theorem State.sampleLat_lnk (s : State) (c : BitVec 4) (l : BitVec 16) : (s.sampleLat c l).lnk = s.lnk := by simp [State.sampleLat]
@[simp] theorem State.sampleLat_rg (s : State) (c : BitVec 4) (l : BitVec 16) : (s.sampleLat c l).rg = s.rg := by simp [State.sampleLat]
@[simp] theorem State.sampleLat_tap (s : State) (c : BitVec 4) (l : BitVec 16) : (s.sampleLat c l).tap = s.tap := by simp [State.sampleLat]
@[simp] theorem State.sampleLat_pending (s : State) (c : BitVec 4) (l : BitVec 16) : (s.sampleLat c l).pending = s.pending := by
  simp [State.sampleLat]

end Sys2Proof.Machine
end

