-- ==== Sys2Proof/Laws/Steps.lean ====
section
/-! SUPPORT. How a command answers: everything the shared answers can do, and the two words of the statements about a next state. -/
namespace Sys2Proof.Machine

variable {s t u : State} {g : Bool} {o : Host.Outcome State Fault Refusal}

/-! ### Answers -/

theorem when_true (h : g = true) : s.when g t = .next { t with pending := s.pending } := by simp [State.when, h]
theorem when_false (h : g = false) : s.when g t = .next s := by simp [State.when, h]

/-- Everything `when` can answer: the effect under its condition, else no change. -/
theorem when_cases (h : s.when g t = .next u) : (g = true ∧ u = { t with pending := s.pending }) ∨ (g = false ∧ u = s) := by
  cases g with
  | true => exact .inl ⟨rfl, by rw [when_true rfl] at h; exact (Host.Outcome.next.inj h).symm⟩
  | false => exact .inr ⟨rfl, by rw [when_false rfl] at h; exact (Host.Outcome.next.inj h).symm⟩

theorem did_next : s.did t = .next { t with pending := s.pending } := rfl

theorem mayStart_of_starts (h : s.starts) : s.mayStart = true := by simp [State.mayStart, h.1, h.2]

theorem starts_of_mayStart (h : s.mayStart = true) : s.starts := by
  simp only [State.mayStart, Bool.and_eq_true, bne_iff_ne] at h; exact h

theorem starting_on (h : s.starts) : s.starting o = o := by simp only [State.starting, mayStart_of_starts h, if_true]

/-- Everything `starting` can answer: no change while starts are stopped, else what the command answers. -/
theorem starting_cases (h : s.starting o = .next u) : (s.mayStart = false ∧ u = s) ∨ (s.starts ∧ o = .next u) := by
  unfold State.starting at h
  split at h
  · exact .inr ⟨starts_of_mayStart (by assumption), h⟩
  · exact .inl ⟨Bool.eq_false_iff.mpr (by assumption), (Host.Outcome.next.inj h).symm⟩

theorem reg_on (h : s.ctl.st ≠ .off) : s.reg t = .next { t with pending := s.pending } := by
  simp only [State.reg]; rw [when_true]; simp [h]

theorem reg_off (h : s.ctl.st = .off) : s.reg t = .next s := by
  simp only [State.reg]; rw [when_false]; simp [h]

/-! ### The words of the statements -/

theorem leaves_of_next {c : Instr} {P : State → Prop} (h : exec c s = .next t) (hp : P t) : Leaves c s P := ⟨t, h, hp⟩

theorem leaves_of_carries {c : Instr} {P : State → Prop} (h : Carries c s t) (hp : P { t with pending := s.pending }) : Leaves c s P :=
  ⟨_, h, hp⟩

/-! ### States of the slice -/

theorem coreUp_not_off (h : s.coreUp = true) : s.ctl.st ≠ .off := by
  intro h2; simp [State.coreUp, h2] at h

theorem coreUp_not_fenced (h : s.coreUp = true) : s.ctl.st ≠ .fenced := by
  intro h2; simp [State.coreUp, h2] at h

theorem coreUp_of_running (h : s.ctl.st = .running) : s.coreUp = true := by simp [State.coreUp, h]

end Sys2Proof.Machine
end

