-- ==== Sys2Proof/Laws/Tables.lean ====
section
/-! SUPPORT. The sparse tables: what a read gives after a change, and that every change keeps the canonical form. -/
namespace Sys2Proof.Machine

variable {α : Type}

/-! ### Keys above a bound -/

theorem tabAbove_mono {lo lo' : Nat} {t : List (Nat × α)} (h : tabAbove lo t = true) (hl : lo' ≤ lo) : tabAbove lo' t = true := by
  cases t with
  | nil => rfl
  | cons p r => simp [tabAbove] at *; exact ⟨by omega, h.2⟩

/-- A key at or below the bound is not listed. -/
theorem tabGet_of_above {lo key : Nat} {t : List (Nat × α)} (h : tabAbove lo t = true) (hk : key ≤ lo) : tabGet t key = none := by
  induction t generalizing lo with
  | nil => rfl
  | cons p r ih =>
    simp [tabAbove] at h
    simp [tabGet, ih h.2 (by omega), show p.1 ≠ key by omega]

theorem tabSorted_tail {p : Nat × α} {r : List (Nat × α)} (h : tabSorted (p :: r) = true) : tabAbove p.1 r = true := h

theorem tabSorted_of_above {lo : Nat} {t : List (Nat × α)} (h : tabAbove lo t = true) : tabSorted t = true := by
  cases t with
  | nil => rfl
  | cons p r => simp [tabAbove] at h; exact h.2

/-! ### A write -/

theorem tabGet_put_self (t : List (Nat × α)) (k : Nat) (v : α) : tabGet (tabPut t k v) k = some v := by
  induction t with
  | nil => simp [tabPut, tabGet]
  | cons p r ih =>
    simp only [tabPut]
    split
    · simp [tabGet]
    · split
      · simp [tabGet]
      · rename_i h; simp [tabGet, h, ih]

theorem tabGet_put_other (t : List (Nat × α)) {k key : Nat} (v : α) (h : key ≠ k) : tabGet (tabPut t k v) key = tabGet t key := by
  induction t with
  | nil => simp [tabPut, tabGet, Ne.symm h]
  | cons p r ih =>
    simp only [tabPut]
    split
    · simp [tabGet, Ne.symm h]
    · split
      · rename_i _ h2; simp [tabGet, Ne.symm h, h2]
      · simp [tabGet, ih]

/-- Reading a key after a write gives the value written there, and elsewhere what it gave before. -/
theorem tabGet_put (t : List (Nat × α)) (k key : Nat) (v : α) :
    tabGet (tabPut t k v) key = if key = k then some v else tabGet t key := by
  split
  · rename_i h; rw [h, tabGet_put_self]
  · rename_i h; exact tabGet_put_other t v h

theorem tabAbove_put {lo k : Nat} {t : List (Nat × α)} (v : α) (h : tabAbove lo t = true) (hk : lo < k) : tabAbove lo (tabPut t k v) = true := by
  induction t generalizing lo with
  | nil => simp [tabPut, tabAbove, hk]
  | cons p r ih =>
    simp [tabAbove] at h
    simp only [tabPut]
    split
    · simp [tabAbove, hk, h.2]; assumption
    · split
      · rename_i h2; simp [tabAbove, ← h2, h.1, h.2]
      · simp [tabAbove, h.1]; exact ih h.2 (by omega)

/-- A write keeps the canonical form. -/
theorem tabSorted_put {t : List (Nat × α)} (k : Nat) (v : α) (h : tabSorted t = true) : tabSorted (tabPut t k v) = true := by
  cases t with
  | nil => rfl
  | cons p r =>
    simp only [tabPut]
    split
    · simp [tabSorted, tabAbove] at *; exact ⟨by assumption, h⟩
    · split
      · rename_i h2; simp [tabSorted] at *; rw [← h2]; exact h
      · simp [tabSorted] at *; exact tabAbove_put v h (by omega)

/-! ### A removal -/

theorem tabAbove_del {lo k : Nat} {t : List (Nat × α)} (h : tabAbove lo t = true) : tabAbove lo (tabDel t k) = true := by
  induction t generalizing lo with
  | nil => rfl
  | cons p r ih =>
    simp [tabAbove] at h
    simp only [tabDel]
    split
    · exact tabAbove_mono h.2 (by omega)
    · simp [tabAbove, h.1, ih h.2]

/-- A removal keeps the canonical form. -/
theorem tabSorted_del {t : List (Nat × α)} (k : Nat) (h : tabSorted t = true) : tabSorted (tabDel t k) = true := by
  cases t with
  | nil => rfl
  | cons p r =>
    simp only [tabDel]
    split
    · exact tabSorted_of_above h
    · exact tabAbove_del h

/-- Reading a table in canonical form after a removal. -/
theorem tabGet_del {t : List (Nat × α)} (k key : Nat) (h : tabSorted t = true) :
    tabGet (tabDel t k) key = if key = k then none else tabGet t key := by
  induction t with
  | nil => simp [tabDel, tabGet]
  | cons p r ih =>
    have hr : tabSorted r = true := tabSorted_of_above h
    simp only [tabDel]
    split
    · rename_i h2
      split
      · rename_i h3; exact tabGet_of_above h (by omega)
      · simp [tabGet, show p.1 ≠ key by omega]
    · rename_i h2
      simp only [tabGet, ih hr]
      split
      · rename_i h3; simp [show key ≠ k by omega]
      · rfl

/-! ### Filters and changes of values -/

theorem tabAbove_filter {lo : Nat} {t : List (Nat × α)} (p : Nat × α → Bool) (h : tabAbove lo t = true) : tabAbove lo (t.filter p) = true := by
  induction t generalizing lo with
  | nil => rfl
  | cons x r ih =>
    simp [tabAbove] at h
    simp only [List.filter]
    split
    · simp [tabAbove, h.1, ih h.2]
    · exact tabAbove_mono (ih h.2) (by omega)

theorem tabSorted_filter {t : List (Nat × α)} (p : Nat × α → Bool) (h : tabSorted t = true) : tabSorted (t.filter p) = true := by
  cases t with
  | nil => rfl
  | cons x r =>
    simp only [List.filter]
    split
    · exact tabAbove_filter p h
    · exact tabSorted_of_above (tabAbove_filter p h)

theorem tabAbove_map {β : Type} {lo : Nat} {t : List (Nat × α)} (g : Nat × α → β) (h : tabAbove lo t = true) :
    tabAbove lo (t.map fun x => (x.1, g x)) = true := by
  induction t generalizing lo with
  | nil => rfl
  | cons x r ih => simp [tabAbove] at *; exact ⟨h.1, ih h.2⟩

theorem tabSorted_map {β : Type} {t : List (Nat × α)} (g : Nat × α → β) (h : tabSorted t = true) :
    tabSorted (t.map fun x => (x.1, g x)) = true := by
  cases t with
  | nil => rfl
  | cons x r => exact tabAbove_map g h

/-- What every value listed has, it has after a write of such a value. -/
theorem tabAll_put {t : List (Nat × α)} {k : Nat} {v : α} (p : Nat × α → Bool) (h : t.all p = true) (hv : p (k, v) = true) :
    (tabPut t k v).all p = true := by
  induction t with
  | nil => simp [tabPut, hv]
  | cons x r ih =>
    simp at h
    simp only [tabPut]
    split
    · simp [hv, h.1]; exact h.2
    · split
      · simp [hv]; exact h.2
      · simp only [List.all_cons, h.1, Bool.true_and]; exact ih (by simpa using h.2)

theorem tabAll_del {t : List (Nat × α)} {k : Nat} (p : Nat × α → Bool) (h : t.all p = true) : (tabDel t k).all p = true := by
  induction t with
  | nil => rfl
  | cons x r ih =>
    simp at h
    simp only [tabDel]
    split
    · simpa using h.2
    · simp only [List.all_cons, h.1, Bool.true_and]; exact ih (by simpa using h.2)

/-! ### Free keys -/

/-- A free index lies below the bound and is not listed. -/
theorem tabFree_spec {t : List (Nat × α)} {n i : Nat} (h : tabFree t n = some i) : i < n ∧ tabGet t i = none := by
  have h1 := List.find?_some h
  have h2 := List.mem_of_find?_eq_some h
  exact ⟨by simpa using h2, by simpa using h1⟩

end Sys2Proof.Machine
end

