-- ==== Sys2Proof/Laws/Canonical.lean ====
section
/-! SUPPORT. What the operations on the sparse tables leave there, and that they keep the canonical form of Safety. -/
namespace Sys2Proof.Machine

variable {s t : State}

/-! ### Reading back -/

theorem frame_setFrame (h : tabSorted s.arr.frames = true) (k key : Nat) (f : Frame) :
    (s.setFrame k f).frame key = if key = k then (if f.fmt = .invalid then none else some f) else s.frame key := by
  unfold State.setFrame State.frame
  by_cases hf : f.fmt = .invalid
  · simp [hf, tabGet_del k key h]
  · simp [hf, tabGet_put]

theorem frame_dropFrame (h : tabSorted s.arr.frames = true) (k key : Nat) :
    (s.dropFrame k).frame key = if key = k then none else s.frame key := by
  simp [State.dropFrame, State.frame, tabGet_del k key h]

theorem landAt_setLand (h : tabSorted s.land.tab = true) (g key : Nat) (e : Land) :
    (s.setLand g e).landAt key = if key = g then (if e.isReset then .reset else e) else s.landAt key := by
  unfold State.setLand State.landAt
  by_cases he : e.isReset = true
  · by_cases hk : key = g
    · subst hk; simp [he, tabGet_del key key h]
    · simp [he, tabGet_del g key h, hk]
  · by_cases hk : key = g <;> simp [he, tabGet_put, hk]

theorem patWord_patWrite (h : tabSorted s.chk.pat = true) (i slot w : Nat) (d : Word) :
    (s.patWrite i d).patWord slot w = if 32 * slot + w = i then d &&& patFields (i % 32) else s.patWord slot w := by
  unfold State.patWrite State.patWord
  dsimp only
  split <;> rename_i hd
  · rw [tabGet_del i _ h]; split
    · exact hd.symm
    · rfl
  · rw [tabGet_put]; split <;> rfl

/-! ### The canonical form -/

/-- The canonical form speaks of the ten tables alone. -/
theorem canonical_congr (h1 : t.arr.frames = s.arr.frames) (h2 : t.arr.ceCnt = s.arr.ceCnt) (h3 : t.mp.miss = s.mp.miss)
    (h4 : t.home.sf = s.home.sf) (h5 : t.home.ht = s.home.ht) (h6 : t.knd.lb = s.knd.lb) (h7 : t.knd.ft = s.knd.ft)
    (h8 : t.pin.cairns = s.pin.cairns) (h9 : t.land.tab = s.land.tab) (h10 : t.chk.pat = s.chk.pat) : t.canonical = s.canonical := by
  simp [State.canonical, *]

theorem canonical_iff : s.canonical = true ↔ tabSorted s.arr.frames = true ∧ tabSorted s.arr.ceCnt = true ∧ tabSorted s.mp.miss = true ∧
    tabSorted s.home.sf = true ∧ tabSorted s.home.ht = true ∧ tabSorted s.knd.lb = true ∧ tabSorted s.knd.ft = true ∧
    tabSorted s.pin.cairns = true ∧ tabSorted s.land.tab = true ∧ tabSorted s.chk.pat = true ∧
    (s.arr.frames.all fun p => p.2.fmt != .invalid) = true ∧ (s.home.sf.all fun p => !p.2.empty) = true ∧
    (s.land.tab.all fun p => !p.2.isReset) = true ∧ (s.chk.pat.all fun p => p.2 != 0) = true := by
  simp only [State.canonical, Bool.and_eq_true, and_assoc]

theorem canonical_setFrame (h : s.canonical = true) (k : Nat) (f : Frame) : (s.setFrame k f).canonical = true := by
  obtain ⟨h1, h2, h3, h4, h5, h6, h7, h8, h9, h10, h11, h12, h13, h14⟩ := canonical_iff.mp h
  by_cases hc : f.fmt = .invalid
  · have hs : s.setFrame k f = { s with arr.frames := tabDel s.arr.frames k } := by simp [State.setFrame, hc]
    rw [hs]
    exact canonical_iff.mpr ⟨tabSorted_del k h1, h2, h3, h4, h5, h6, h7, h8, h9, h10, tabAll_del _ h11, h12, h13, h14⟩
  · have hs : s.setFrame k f = { s with arr.frames := tabPut s.arr.frames k f } := by simp [State.setFrame, hc]
    rw [hs]
    exact canonical_iff.mpr ⟨tabSorted_put k f h1, h2, h3, h4, h5, h6, h7, h8, h9, h10, tabAll_put _ h11 (by simpa using hc), h12, h13, h14⟩

theorem canonical_sfPut (h : s.canonical = true) (k : Nat) (e : Sf) : (s.sfPut k e).canonical = true := by
  obtain ⟨h1, h2, h3, h4, h5, h6, h7, h8, h9, h10, h11, h12, h13, h14⟩ := canonical_iff.mp h
  by_cases hc : e.empty = true
  · have hs : s.sfPut k e = { s with home.sf := tabDel s.home.sf k } := by simp [State.sfPut, hc]
    rw [hs]
    exact canonical_iff.mpr ⟨h1, h2, h3, tabSorted_del k h4, h5, h6, h7, h8, h9, h10, h11, tabAll_del _ h12, h13, h14⟩
  · have hs : s.sfPut k e = { s with home.sf := tabPut s.home.sf k e } := by simp [State.sfPut, hc]
    rw [hs]
    exact canonical_iff.mpr ⟨h1, h2, h3, tabSorted_put k e h4, h5, h6, h7, h8, h9, h10, h11, tabAll_put _ h12 (by simpa using hc), h13, h14⟩

theorem canonical_setLand (h : s.canonical = true) (g : Nat) (e : Land) : (s.setLand g e).canonical = true := by
  obtain ⟨h1, h2, h3, h4, h5, h6, h7, h8, h9, h10, h11, h12, h13, h14⟩ := canonical_iff.mp h
  by_cases hc : e.isReset = true
  · have hs : s.setLand g e = { s with land.tab := tabDel s.land.tab g } := by simp [State.setLand, hc]
    rw [hs]
    exact canonical_iff.mpr ⟨h1, h2, h3, h4, h5, h6, h7, h8, tabSorted_del g h9, h10, h11, h12, tabAll_del _ h13, h14⟩
  · have hs : s.setLand g e = { s with land.tab := tabPut s.land.tab g e } := by simp [State.setLand, hc]
    rw [hs]
    exact canonical_iff.mpr ⟨h1, h2, h3, h4, h5, h6, h7, h8, tabSorted_put g e h9, h10, h11, h12, tabAll_put _ h13 (by simpa using hc), h14⟩

theorem canonical_patWrite (h : s.canonical = true) (i : Nat) (d : Word) : (s.patWrite i d).canonical = true := by
  obtain ⟨h1, h2, h3, h4, h5, h6, h7, h8, h9, h10, h11, h12, h13, h14⟩ := canonical_iff.mp h
  unfold State.patWrite
  dsimp only
  split
  · exact canonical_iff.mpr ⟨h1, h2, h3, h4, h5, h6, h7, h8, h9, tabSorted_del i h10, h11, h12, h13, tabAll_del _ h14⟩
  · exact canonical_iff.mpr ⟨h1, h2, h3, h4, h5, h6, h7, h8, h9, tabSorted_put i _ h10, h11, h12, h13, tabAll_put _ h14 (by simpa using ‹_›)⟩

theorem canonical_lbPut (h : s.canonical = true) (i : Nat) (e : Lb) : (s.lbPut i e).canonical = true := by
  obtain ⟨h1, h2, h3, h4, h5, h6, h7, h8, h9, h10, h11, h12, h13, h14⟩ := canonical_iff.mp h
  exact canonical_iff.mpr ⟨h1, h2, h3, h4, h5, tabSorted_put i e h6, h7, h8, h9, h10, h11, h12, h13, h14⟩

theorem canonical_lbDel (h : s.canonical = true) (i : Nat) : (s.lbDel i).canonical = true := by
  obtain ⟨h1, h2, h3, h4, h5, h6, h7, h8, h9, h10, h11, h12, h13, h14⟩ := canonical_iff.mp h
  exact canonical_iff.mpr ⟨h1, h2, h3, h4, h5, tabSorted_del i h6, h7, h8, h9, h10, h11, h12, h13, h14⟩

theorem canonical_lbStale (h : s.canonical = true) (p : Nat → Bool) : (s.lbStale p).canonical = true := by
  obtain ⟨h1, h2, h3, h4, h5, h6, h7, h8, h9, h10, h11, h12, h13, h14⟩ := canonical_iff.mp h
  exact canonical_iff.mpr ⟨h1, h2, h3, h4, h5, tabSorted_filter _ h6, h7, h8, h9, h10, h11, h12, h13, h14⟩

theorem canonical_dropFrame (h : s.canonical = true) (k : Nat) : (s.dropFrame k).canonical = true := by
  have h2 := canonical_setFrame (canonical_lbStale h fun q => q / 4 == k) k { tag := 0, space := false, fmt := .invalid, slots := [], pin := false, data := 0 }
  rw [← h2]
  apply canonical_congr <;> simp [State.dropFrame, State.setFrame]

/-- The memory of the slice is its sparse tables: after reset none lists anything. -/
theorem canonical_reset : State.reset.canonical = true := by decide

end Sys2Proof.Machine
end

