-- ==== Sys2Proof/WellFormed.lean ====
section
/-! DEFINITION. Which commands are well formed: operands that the manual's ranges admit and the types do not force. -/
namespace Sys2Proof

/-- A finding of the SECDED check names at most one array word; the bus took at most 4 reads, 5 + m telling of the failure of
the fourth on words of mask m (R401). -/
def Chk.wf (c : Chk) : Bool := c.bus < 5 + 2 ^ 20

/-- The checks of a command's operands. Counters are numbered 0 to 159 (R450); a near port carries two flits per cycle (R62);
the bond test reports each connection once; the ports of arbitration are 0 to 5 (R388); an unassigned code of the TAP is not
one of its instructions (R79); LANECHK observes 8 lanes and PRBS counts 8 lanes (R92, R96); a data frame has 16 slots (R86);
the line buffer has 48 entries (R322). -/
def Instr.wf : Instr → Bool
  | .counterWrap i => i < 160
  | .pmcCntLoRead _ i => i < 160
  | .pmcULoRead _ i => i < 160
  | .bypass code => code != 1
  | .nearPortReceive _ fs => fs.length ≤ 2
  | .portGrant p _ => p.toNat < 6
  | .requestDecode _ bus => bus < 5 + 2 ^ 20
  | .lanechkEnd obs => obs.length == 8
  | .prbsEnd errs _ => errs.length == 8
  | .saddleFrameReceive _ slots _ _ => slots.length == 16
  | .lineBufferWriteback i => i.toNat < 48
  | .initializingDone fails => decide fails.Nodup
  | .readShared _ c | .readUnique _ c | .readOnce _ c | .cleanUnique _ c | .writeBack _ c | .evictClean _ c
  | .writeUnique _ c | .zeroLine _ c | .atomic _ c | .reduce _ c => c.wf
  | .invRangeLine _ _ c | .digestLineRead _ c => c.wf
  | .scanRow _ _ kc vc => kc.wf && vc.wf
  | .load _ | .imageWord _ _ | .imageCheckDone | .imageApplyDone | .abort _ | .quiesce _ | .quiescedReached | .resume _
  | .epoch _ | .epochDone | .drain _ | .drainedReached | .unshape _ | .declare _ _ _ | .release _ _ | .retrain _ _
  | .holdDown _ _ | .freeze _ _ | .snap _ _ _ | .clr _ _ | .registerWrite _ _ _ _ | .patternStoreWrite _ _ _
  | .powcycLoRead _ | .pwrELoRead _ _ | .screeRetire _ | .ijtagAccess | .tapReset | .ringResetAssert _
  | .ringResetDeassert _ _ _ _ | .coreResetAssert | .coreResetExit | .mpResetAssert | .mpResetDeassert | .phyResetAssert
  | .phyResetDeassert | .mckStop | .pckStop | .droopAssert | .droopLift | .throttleTaken _ | .freqReqHigh _
  | .freqDeferEnd | .freqPrepDone | .freqReqLow | .energyReport | .ringFlitArrival _ _ _ _ | .insertionTimeout _
  | .ringInject _ _ | .nearPortCredit _ _ | .nearPortTransmit _ _ | .payloadArrival _ | .payloadTimeout _
  | .finalWrite _ | .moveReceive _ | .scan | .invRange | .digest | .pin | .unpin | .snpRspI | .snpRspS | .snpRspSFwd
  | .snpRspOFwd | .snpRspIFwd | .snpRspIFwdD | .snpRspSData | .snpRspIData | .snpSwept | .snoopResend _
  | .deadAgentTimeout _ | .reclaimWalkStart | .reclaimWalkVisit | .missIssue _ | .missRegisterRetry _ | .memCmdTransfer
  | .memWriteDataTransfer | .memReadData _ _ _ _ _ _ | .memWriteCompletion _ _ _ | .memReadTimeout _ | .memWriteTimeout _
  | .placementResume _ | .correctedRewrite _ | .errorWindowEnd | .scrubStep _ | .wayCloseVisit _ | .pinWalkVisit _
  | .unpinWalkVisit _ | .demotionStep _ | .thrashWindowEnd | .epochSfWalkVisit | .epochTagWalkVisit _ | .moveSend _
  | .moveComplete | .moveResend _ | .kneadCommit _ _ | .scanColumnStart _ | .scanComplete | .landingFlushTimer _
  | .tallyAddComplete | .tallyReadComplete | .tallySubComplete | .tallyPoll _ | .tallyRetry _ | .tallyTimeout _
  | .qosWindowEnd | .bankGroupIdle _ | .rampLevelStep _ | .patternRunDue | .patternRun _ | .detectEnd _ | .ts1Recognised
  | .noPartnerTimeout | .capexDone _ _ _ _ | .phyRateReady | .phyTimeout | .alignDone | .trainPhaseTimeout _
  | .saddleFrameSend _ | .saddleSignalLoss _ | .saddleSymbolThreshold _ | .retrainTimeout | .mckAlive | .pckAlive
  | .ijtagInstrumentAccess _ _ => true

end Sys2Proof
end

