-- ==== Sys2Proof/Laws/PerInstr.lean ====
section
/-! SUPPORT. One lemma per command, about the command as syntax: which group of Safety it belongs to and what its operands may be. -/
namespace Sys2Proof.Laws.Boundary

/-- The event counter a command names, where it names one. -/
def counter : Instr → Option Nat
  | .pmcCntLoRead _ n | .pmcULoRead _ n | .counterWrap n => some n
  | _ => none

/-- A command that writes a register or resets is one of the administrative commands, the two groups have no command in common, and a
command that names an event counter is well formed only where the slice has that counter. -/
def Statement (i : Instr) : Prop :=
  (i.writesRegister = true → i.administers = true ∧ i.resets = false) ∧ (i.resets = true → i.administers = true) ∧
    (i.wf = true → ∀ n, counter i = some n → n < 160)

/-- A command of neither group that names no counter. -/
theorem plain {i : Instr} (hw : i.writesRegister = false) (hr : i.resets = false) (hn : counter i = none) : Statement i := by
  simp [Statement, hw, hr, hn]

/-- A command of neither group that names a counter of the slice when it is well formed. -/
theorem counted {i : Instr} {n : Nat} (hw : i.writesRegister = false) (hr : i.resets = false) (hn : counter i = some n)
    (hf : i.wf = decide (n < 160)) : Statement i := by
  simp [Statement, hw, hr, hn, hf]

/-- An administrative command of one of the two groups. -/
theorem grouped {i : Instr} (ha : i.administers = true) (h : i.writesRegister = true → i.resets = false) (hn : counter i = none) : Statement i := by
  simpa [Statement, ha, hn] using h

theorem load (p : Par) : Statement (.load p) := plain rfl rfl rfl
theorem imageWord (p : Par) (d : Word) : Statement (.imageWord p d) := plain rfl rfl rfl
theorem imageCheckDone : Statement (.imageCheckDone) := plain rfl rfl rfl
theorem imageApplyDone : Statement (.imageApplyDone) := plain rfl rfl rfl
theorem initializingDone (fails : List (BitVec 4 × BitVec 10)) : Statement (.initializingDone fails) := plain rfl rfl rfl
theorem abort (p : Par) : Statement (.abort p) := plain rfl rfl rfl
theorem quiesce (p : Par) : Statement (.quiesce p) := plain rfl rfl rfl
theorem quiescedReached : Statement (.quiescedReached) := plain rfl rfl rfl
theorem resume (p : Par) : Statement (.resume p) := plain rfl rfl rfl
theorem epoch (p : Par) : Statement (.epoch p) := plain rfl rfl rfl
theorem epochDone : Statement (.epochDone) := plain rfl rfl rfl
theorem drain (p : Par) : Statement (.drain p) := plain rfl rfl rfl
theorem drainedReached : Statement (.drainedReached) := plain rfl rfl rfl
theorem unshape (p : Par) : Statement (.unshape p) := plain rfl rfl rfl
theorem declare (p : Par) (agent : Id12) (np : BitVec 2) : Statement (.declare p agent np) := plain rfl rfl rfl
theorem release (p : Par) (agent : Id12) : Statement (.release p agent) := plain rfl rfl rfl
theorem retrain (p : Par) (hold : Bool) : Statement (.retrain p hold) := plain rfl rfl rfl
theorem holdDown (p : Par) (hold : Bool) : Statement (.holdDown p hold) := plain rfl rfl rfl
theorem freeze (p : Par) (v : Bool) : Statement (.freeze p v) := plain rfl rfl rfl
theorem snap (p : Par) (frz : Bool) (clr : Bool) : Statement (.snap p frz clr) := plain rfl rfl rfl
theorem clr (p : Par) (frz : Bool) : Statement (.clr p frz) := plain rfl rfl rfl
theorem registerWrite (p : RgAcc) (a : BitVec 14) (d : Word) (hw : Word) : Statement (.registerWrite p a d hw) := grouped rfl (fun _ => rfl) rfl
theorem patternStoreWrite (p : Par) (i : BitVec 11) (d : Word) : Statement (.patternStoreWrite p i d) := plain rfl rfl rfl
theorem powcycLoRead (apar : Bool) : Statement (.powcycLoRead apar) := plain rfl rfl rfl
theorem pwrELoRead (apar : Bool) (c : BitVec 4) : Statement (.pwrELoRead apar c) := plain rfl rfl rfl
theorem pmcCntLoRead (apar : Bool) (i : Nat) : Statement (.pmcCntLoRead apar i) := counted rfl rfl rfl rfl
theorem pmcULoRead (apar : Bool) (i : Nat) : Statement (.pmcULoRead apar i) := counted rfl rfl rfl rfl
theorem screeRetire (apar : Bool) : Statement (.screeRetire apar) := plain rfl rfl rfl
theorem ijtagAccess : Statement (.ijtagAccess) := plain rfl rfl rfl
theorem bypass (code : BitVec 4) : Statement (.bypass code) := plain rfl rfl rfl
theorem tapReset : Statement .tapReset := plain rfl rfl rfl
theorem ringResetAssert (tst : Bool) : Statement (.ringResetAssert tst) := grouped rfl nofun rfl
theorem ringResetDeassert (slice : Id12) (die : BitVec 4) (edge : Bool) (itag : BitVec 64) : Statement (.ringResetDeassert slice die edge itag) := plain rfl rfl rfl
theorem coreResetAssert : Statement (.coreResetAssert) := grouped rfl nofun rfl
theorem coreResetExit : Statement (.coreResetExit) := plain rfl rfl rfl
theorem mpResetAssert : Statement (.mpResetAssert) := plain rfl rfl rfl
theorem mpResetDeassert : Statement (.mpResetDeassert) := plain rfl rfl rfl
theorem phyResetAssert : Statement (.phyResetAssert) := plain rfl rfl rfl
theorem phyResetDeassert : Statement (.phyResetDeassert) := plain rfl rfl rfl
theorem mckStop : Statement (.mckStop) := plain rfl rfl rfl
theorem pckStop : Statement (.pckStop) := plain rfl rfl rfl
theorem droopAssert : Statement (.droopAssert) := plain rfl rfl rfl
theorem droopLift : Statement (.droopLift) := plain rfl rfl rfl
theorem throttleTaken (l : BitVec 3) : Statement (.throttleTaken l) := plain rfl rfl rfl
theorem freqReqHigh (recent : Bool) : Statement (.freqReqHigh recent) := plain rfl rfl rfl
theorem freqDeferEnd : Statement (.freqDeferEnd) := plain rfl rfl rfl
theorem freqPrepDone : Statement (.freqPrepDone) := plain rfl rfl rfl
theorem freqReqLow : Statement (.freqReqLow) := plain rfl rfl rfl
theorem energyReport : Statement (.energyReport) := plain rfl rfl rfl
theorem counterWrap (i : Nat) : Statement (.counterWrap i) := counted rfl rfl rfl rfl
theorem ringFlitArrival (d : Dir) (f : Flit) (par : FlitPar) (lat : List (BitVec 16)) : Statement (.ringFlitArrival d f par lat) := plain rfl rfl rfl
theorem insertionTimeout (d : Dir) : Statement (.insertionTimeout d) := plain rfl rfl rfl
theorem ringInject (d : Dir) (lat : List (BitVec 16)) : Statement (.ringInject d lat) := plain rfl rfl rfl
theorem nearPortReceive (n : Near) (fs : List (Flit × FlitPar)) : Statement (.nearPortReceive n fs) := plain rfl rfl rfl
theorem nearPortCredit (n : Near) (crd : Byte) : Statement (.nearPortCredit n crd) := plain rfl rfl rfl
theorem nearPortTransmit (n : Near) (lat : List (BitVec 16)) : Statement (.nearPortTransmit n lat) := plain rfl rfl rfl
theorem portGrant (p : BitVec 3) (d : Dir) : Statement (.portGrant p d) := plain rfl rfl rfl
theorem requestDecode (src : Src) (bus : Nat) : Statement (.requestDecode src bus) := plain rfl rfl rfl
theorem payloadArrival (src : Src) : Statement (.payloadArrival src) := plain rfl rfl rfl
theorem payloadTimeout (src : Src) : Statement (.payloadTimeout src) := plain rfl rfl rfl
theorem readShared (l : LineId) (c : Chk) : Statement (.readShared l c) := plain rfl rfl rfl
theorem readUnique (l : LineId) (c : Chk) : Statement (.readUnique l c) := plain rfl rfl rfl
theorem readOnce (l : LineId) (c : Chk) : Statement (.readOnce l c) := plain rfl rfl rfl
theorem cleanUnique (l : LineId) (c : Chk) : Statement (.cleanUnique l c) := plain rfl rfl rfl
theorem writeBack (l : LineId) (c : Chk) : Statement (.writeBack l c) := plain rfl rfl rfl
theorem evictClean (l : LineId) (c : Chk) : Statement (.evictClean l c) := plain rfl rfl rfl
theorem writeUnique (l : LineId) (c : Chk) : Statement (.writeUnique l c) := plain rfl rfl rfl
theorem finalWrite (l : LineId) : Statement (.finalWrite l) := plain rfl rfl rfl
theorem moveReceive (l : LineId) : Statement (.moveReceive l) := plain rfl rfl rfl
theorem zeroLine (l : LineId) (c : Chk) : Statement (.zeroLine l c) := plain rfl rfl rfl
theorem atomic (l : LineId) (c : Chk) : Statement (.atomic l c) := plain rfl rfl rfl
theorem reduce (l : LineId) (c : Chk) : Statement (.reduce l c) := plain rfl rfl rfl
theorem scan : Statement (.scan) := plain rfl rfl rfl
theorem invRange : Statement (.invRange) := plain rfl rfl rfl
theorem invRangeLine (i : Nat) (g : BitVec 2) (c : Chk) : Statement (.invRangeLine i g c) := plain rfl rfl rfl
theorem digest : Statement (.digest) := plain rfl rfl rfl
theorem digestLineRead (g : BitVec 2) (c : Chk) : Statement (.digestLineRead g c) := plain rfl rfl rfl
theorem pin : Statement (.pin) := plain rfl rfl rfl
theorem unpin : Statement (.unpin) := plain rfl rfl rfl
theorem snpRspI : Statement (.snpRspI) := plain rfl rfl rfl
theorem snpRspS : Statement (.snpRspS) := plain rfl rfl rfl
theorem snpRspSFwd : Statement (.snpRspSFwd) := plain rfl rfl rfl
theorem snpRspOFwd : Statement (.snpRspOFwd) := plain rfl rfl rfl
theorem snpRspIFwd : Statement (.snpRspIFwd) := plain rfl rfl rfl
theorem snpRspIFwdD : Statement (.snpRspIFwdD) := plain rfl rfl rfl
theorem snpRspSData : Statement (.snpRspSData) := plain rfl rfl rfl
theorem snpRspIData : Statement (.snpRspIData) := plain rfl rfl rfl
theorem snpSwept : Statement (.snpSwept) := plain rfl rfl rfl
theorem snoopResend (e : BitVec 9) : Statement (.snoopResend e) := plain rfl rfl rfl
theorem deadAgentTimeout (e : BitVec 9) : Statement (.deadAgentTimeout e) := plain rfl rfl rfl
theorem reclaimWalkStart : Statement (.reclaimWalkStart) := plain rfl rfl rfl
theorem reclaimWalkVisit : Statement (.reclaimWalkVisit) := plain rfl rfl rfl
theorem missIssue (tag : Byte) : Statement (.missIssue tag) := plain rfl rfl rfl
theorem missRegisterRetry (e : BitVec 9) : Statement (.missRegisterRetry e) := plain rfl rfl rfl
theorem memCmdTransfer : Statement (.memCmdTransfer) := plain rfl rfl rfl
theorem memWriteDataTransfer : Statement (.memWriteDataTransfer) := plain rfl rfl rfl
theorem memReadData (tag : Byte) (data : Line) (pois crv : Bool) (crust : Word) (par : BitVec 34) : Statement (.memReadData tag data pois crv crust par) := plain rfl rfl rfl
theorem memWriteCompletion (tag : BitVec 6) (err : Bool) (par : Bool) : Statement (.memWriteCompletion tag err par) := plain rfl rfl rfl
theorem memReadTimeout (tag : Byte) : Statement (.memReadTimeout tag) := plain rfl rfl rfl
theorem memWriteTimeout (tag : BitVec 6) : Statement (.memWriteTimeout tag) := plain rfl rfl rfl
theorem placementResume (e : BitVec 9) : Statement (.placementResume e) := plain rfl rfl rfl
theorem correctedRewrite (bank : BitVec 4) : Statement (.correctedRewrite bank) := plain rfl rfl rfl
theorem errorWindowEnd : Statement (.errorWindowEnd) := plain rfl rfl rfl
theorem scrubStep (fs : List ScrubFind) : Statement (.scrubStep fs) := plain rfl rfl rfl
theorem wayCloseVisit (bank : BitVec 4) : Statement (.wayCloseVisit bank) := plain rfl rfl rfl
theorem pinWalkVisit (bank : BitVec 4) : Statement (.pinWalkVisit bank) := plain rfl rfl rfl
theorem unpinWalkVisit (bank : BitVec 4) : Statement (.unpinWalkVisit bank) := plain rfl rfl rfl
theorem demotionStep (c : BitVec 4) : Statement (.demotionStep c) := plain rfl rfl rfl
theorem thrashWindowEnd : Statement (.thrashWindowEnd) := plain rfl rfl rfl
theorem epochSfWalkVisit : Statement (.epochSfWalkVisit) := plain rfl rfl rfl
theorem epochTagWalkVisit (bank : BitVec 4) : Statement (.epochTagWalkVisit bank) := plain rfl rfl rfl
theorem moveSend (e : BitVec 9) : Statement (.moveSend e) := plain rfl rfl rfl
theorem moveComplete : Statement (.moveComplete) := plain rfl rfl rfl
theorem moveResend (e : BitVec 9) : Statement (.moveResend e) := plain rfl rfl rfl
theorem kneadCommit (e : BitVec 9) (r : Resid) : Statement (.kneadCommit e r) := plain rfl rfl rfl
theorem lineBufferWriteback (i : BitVec 6) : Statement (.lineBufferWriteback i) := plain rfl rfl rfl
theorem scanColumnStart (col : BitVec 2) : Statement (.scanColumnStart col) := plain rfl rfl rfl
theorem scanRow (col : BitVec 2) (seen : ScanSeen) (kc : Chk) (vc : Chk) : Statement (.scanRow col seen kc vc) := plain rfl rfl rfl
theorem scanComplete : Statement (.scanComplete) := plain rfl rfl rfl
theorem landingFlushTimer (g : BitVec 6) : Statement (.landingFlushTimer g) := plain rfl rfl rfl
theorem tallyAddComplete : Statement (.tallyAddComplete) := plain rfl rfl rfl
theorem tallyReadComplete : Statement (.tallyReadComplete) := plain rfl rfl rfl
theorem tallySubComplete : Statement (.tallySubComplete) := plain rfl rfl rfl
theorem tallyPoll (g : BitVec 6) : Statement (.tallyPoll g) := plain rfl rfl rfl
theorem tallyRetry (g : BitVec 6) : Statement (.tallyRetry g) := plain rfl rfl rfl
theorem tallyTimeout (g : BitVec 6) : Statement (.tallyTimeout g) := plain rfl rfl rfl
theorem qosWindowEnd : Statement (.qosWindowEnd) := plain rfl rfl rfl
theorem bankGroupIdle (g : BitVec 2) : Statement (.bankGroupIdle g) := plain rfl rfl rfl
theorem rampLevelStep (g : BitVec 2) : Statement (.rampLevelStep g) := plain rfl rfl rfl
theorem patternRunDue : Statement (.patternRunDue) := plain rfl rfl rfl
theorem patternRun (wrong : Bool) : Statement (.patternRun wrong) := plain rfl rfl rfl
theorem detectEnd (fesense : BitVec 16) : Statement (.detectEnd fesense) := plain rfl rfl rfl
theorem ts1Recognised : Statement (.ts1Recognised) := plain rfl rfl rfl
theorem noPartnerTimeout : Statement (.noPartnerTimeout) := plain rfl rfl rfl
theorem lanechkEnd (obs : List LaneObs) : Statement (.lanechkEnd obs) := plain rfl rfl rfl
theorem capexDone (pcap : Word) (pgood : Byte) (maxr : BitVec 2) (pmaxr : BitVec 2) : Statement (.capexDone pcap pgood maxr pmaxr) := plain rfl rfl rfl
theorem phyRateReady : Statement (.phyRateReady) := plain rfl rfl rfl
theorem phyTimeout : Statement (.phyTimeout) := plain rfl rfl rfl
theorem prbsEnd (errs : List Nat) (ppass : Byte) : Statement (.prbsEnd errs ppass) := plain rfl rfl rfl
theorem alignDone : Statement (.alignDone) := plain rfl rfl rfl
theorem trainPhaseTimeout (ph : TrainPhase) : Statement (.trainPhaseTimeout ph) := plain rfl rfl rfl
theorem saddleFrameReceive (hdr : BitVec 40) (slots : List Flit) (ctl : CtlFields) (fec : FecFound) : Statement (.saddleFrameReceive hdr slots ctl fec) := plain rfl rfl rfl
theorem saddleFrameSend (bad : List Reread) : Statement (.saddleFrameSend bad) := plain rfl rfl rfl
theorem saddleSignalLoss (lane : BitVec 3) : Statement (.saddleSignalLoss lane) := plain rfl rfl rfl
theorem saddleSymbolThreshold (lane : BitVec 3) : Statement (.saddleSymbolThreshold lane) := plain rfl rfl rfl
theorem retrainTimeout : Statement (.retrainTimeout) := plain rfl rfl rfl
theorem mckAlive : Statement (.mckAlive) := plain rfl rfl rfl
theorem pckAlive : Statement (.pckAlive) := plain rfl rfl rfl
theorem ijtagInstrumentAccess (ins : Instrument) (update : Bool) : Statement (.ijtagInstrumentAccess ins update) := plain rfl rfl rfl

end Sys2Proof.Laws.Boundary
end

