-- ==== Sys2Proof/Laws/Registers.lean ====
section
/-! SUPPORT. The register port: an access with good parity, and the accesses to ST_CMD and ST_IMG_DATA. -/
namespace Sys2Proof.Machine

variable {s : State}

@[simp] theorem wordAddr_toNat (o : Nat) : 4 * (wordAddr o).toNat = 4 * (o / 4 % 16384) := by simp [wordAddr]

/-- A write access with good parity: carried out where the access performs, else refused. -/
theorem writeAcc_good (s : State) (o : Nat) (d hw : Word) :
    s.writeAcc (goodPar o d) (wordAddr o) d hw =
      if s.performs true (4 * (wordAddr o).toNat) then { s.regWrite (4 * (wordAddr o).toNat) d hw with rg.err := false, rg.rdy := true }
      else { s with rg.err := true, rg.rdy := true } := by
  simp [State.writeAcc, goodPar, aparOk]

/-- A read access with good parity. -/
theorem readAcc_good (s : State) (o : Nat) (f : State → State) :
    s.readAcc (goodRead o) (wordAddr o) f =
      if s.performs false (4 * (wordAddr o).toNat) then
        { f s with rg := ⟨((s.regRead (4 * (wordAddr o).toNat)).getD 0), parity ((s.regRead (4 * (wordAddr o).toNat)).getD 0), false, true⟩ }
      else { s with rg := ⟨0, false, true, true⟩ } := by
  simp [State.readAcc, goodRead, aparOk]
  split <;> simp
  decide

/-- Out of FENCED an access performs unless its offset holds no register or the user window keeps it out. -/
theorem performs_up (h : s.coreUp = true) (wr : Bool) (o : Nat) :
    s.performs wr o = ((!userWindow o || (!wr && s.permitted o)) && (s.regRead o).isSome) := by
  have : (s.ctl.st != .fenced) = true := by simp [coreUp_not_fenced h]
  simp [State.performs, this]

theorem performs_stCmd (h : s.coreUp = true) : s.performs true (4 * (0x0404 / 4 % 16384)) = true := by
  rw [performs_up h]; rfl

theorem performs_stImgData (h : s.coreUp = true) : s.performs true (4 * (0x0408 / 4 % 16384)) = true := by
  rw [performs_up h]; rfl

/-- A write of ST_CMD. -/
theorem reg_stCmd (h : s.coreUp = true) (d hw : Word) : s.reg (s.writeAcc (goodPar 0x0404 d) (wordAddr 0x0404) d hw) =
    .next { s.command (fld d 0 4) with rg.err := false, rg.rdy := true, pending := s.pending } := by
  simp only [reg_on (coreUp_not_off h), writeAcc_good, wordAddr_toNat, performs_stCmd h, if_true]
  rfl

/-- A write of ST_IMG_DATA. -/
theorem reg_stImgData (h : s.coreUp = true) (d hw : Word) : s.reg (s.writeAcc (goodPar 0x0408 d) (wordAddr 0x0408) d hw) =
    .next { s.imgData d with rg.err := false, rg.rdy := true, pending := s.pending } := by
  simp only [reg_on (coreUp_not_off h), writeAcc_good, wordAddr_toNat, performs_stImgData h, if_true]
  rfl

end Sys2Proof.Machine
end

