-- ==== Sys2Proof/Machine/SaddleWire.lean ====
section
/-! DEFINITION. What the saddle port puts on SL_SP_TX_DATA: FEC codewords, striping over lanes, training blocks and the PRBS31
pattern (03 R83, R85, R91, R92, R130; log 87). -/
namespace Sys2Proof.Machine

/-- A FEC symbol. -/
abbrev Sym := BitVec 10

/-! ### RS(544,514) (R85) -/

/-- Twice an element of GF(2^10), with x^10 = x^3 + 1 (IEEE 802.3 Clause 91; PRESUMED: log 90). -/
def gfDouble (a : Sym) : Sym := (a <<< (1 : Nat)) ^^^ if bit a 9 then 9 else 0

def gfMul (a b : Sym) : Sym := (List.range 10).foldr (fun i acc => if bit b i then gfDouble acc ^^^ a else gfDouble acc) 0

/-- The generator polynomial: the product of x + 2^i for i from 0 to 29, the highest coefficient first. -/
def rsGen : List Sym :=
  ((List.range 30).foldl (fun (g : List Sym × Sym) _ =>
    (List.zipWith (· ^^^ ·) (g.1 ++ [0]) (0 :: g.1.map (gfMul g.2)), gfDouble g.2)) ([1], 1)).1

/-- One message symbol enters the remainder of the division by the generator. -/
def rsStep (r : List Sym) (m : Sym) : List Sym :=
  List.zipWith (· ^^^ ·) (r.drop 1 ++ [0]) ((rsGen.drop 1).map (gfMul (m ^^^ r.headD 0)))

/-- The 30 parity symbols of a message. -/
def rsParity (m : List Sym) : List Sym := m.foldl rsStep (List.replicate 30 0)

def codeword (m : List Sym) : List Sym := m ++ rsParity m

/-! ### Frames on the lanes (R83, R85) -/

/-- Bits as symbols, the lowest first. -/
def symbolsOf {w : Nat} (x : BitVec w) : List Sym := (List.range (w / 10)).map fun i => fld x (10 * i) 10

/-- The 10,280 bits of a frame as symbols. -/
def frameSymbols (hdr : BitVec 40) (slots : List Flit) : List Sym :=
  symbolsOf hdr ++ ((slots ++ List.replicate 16 0).take 16).flatMap symbolsOf

/-- The symbols a frame travels as: with FEC on two codewords. -/
def wireSymbols (fec : Bool) (hdr : BitVec 40) (slots : List Flit) : List Sym :=
  let m := frameSymbols hdr slots
  if fec then codeword (m.take 514) ++ codeword (m.drop 514) else m

/-- The symbols of lane `l`: round-robin over the active lanes in ascending order. -/
def laneSymbols (lanes : Byte) (syms : List Sym) (l : Nat) : List Sym :=
  let act := (List.range 8).filter fun i => bit lanes i
  if bit lanes l then
    (List.range (syms.length / act.length + 1)).filterMap fun i => syms[i * act.length + act.idxOf l]?
  else []

/-- 32 symbols from `c` times 32 on, as one PCK word of a lane; the earliest lowest. A frame begins a word (log 87). -/
def laneWord (syms : List Sym) (c : Nat) : BitVec 320 :=
  pack 320 ((List.range 32).map fun i => (10 * i, (nth syms (32 * c + i) 0).toNat))

/-- FEC of the mode in use: that of the settled mode under way in ALIGN (R91, R95). -/
def Lnk.fecNow (l : Lnk) : Bool := if l.st = .align then (l.best.map Mode.fec).getD l.mode.fec else l.mode.fec

/-- The frame on the lanes: the earliest in the transmit FIFO, else the last sent (R119; log 89). -/
def Lnk.onLanes (k : Lnk) : Option SentFrame := k.txFifo.head?.orElse fun _ => k.sent

/-- Word `c` of a lane that sends 64 bits and then symbols. -/
def markedWord (m : BitVec 64) (syms : List Sym) (c : Nat) : BitVec 320 :=
  (laneWord syms c <<< (64 : Nat)) ||| (if c = 0 then m.setWidth 320 else laneWord syms (c - 1) >>> (256 : Nat))

/-- Word `c` of the frame on the lanes, on lane `l`. A lane of a control frame sends its marker first (R89; log 87). -/
def Lnk.frameWord (k : Lnk) (l c : Nat) : BitVec 320 :=
  match k.onLanes with
  | some (.data hdr slots) => laneWord (laneSymbols k.laneEn (wireSymbols k.fecNow hdr slots) l) c
  | some (.ctl hdr slots f) => markedWord (nth f.marks l 0) (laneSymbols k.laneEn (wireSymbols k.fecNow hdr slots) l) c
  | none => 0

/-! ### Training blocks (R91, R92) -/

/-- TS1: the sync field, the lane number four times, the block count, and the rest 0 (field order: log 87). -/
def ts1Block (l c : Nat) : BitVec 320 :=
  pack 320 ([(0, Config.freeSync.toNat)] ++ ((List.range 4).map fun i => (64 + 3 * i, l % 8)) ++ [(76, c % 64)])

/-- TS2: the sync field and the lane number, the capability fields and the lane-good mask (positions: log 87). -/
def ts2Block (l : Nat) (cap : Word) (good : Byte) : BitVec 320 :=
  pack 320 ([(0, Config.freeSync.toNat)] ++ (List.range 4).map fun i => (64 + 3 * i, l % 8)) |||
    (Config.freeTs2 cap good >>> (76 : Nat)) <<< (76 : Nat)

/-- The TS2 block last sent on lane `l`: in CAPEX with the lanes found good, at the end of PRBS with those that passed here (R91, R92). -/
def Lnk.ts2Sent (k : Lnk) (l : Nat) : BitVec 320 := ts2Block l k.cfg.cap k.pgood

/-- The next 320 bits of PRBS31, x^31 + x^28 + 1, after a state of 31 bits, the earliest bit lowest; and the state after them. -/
def prbsWord (s : BitVec 31) : BitVec 320 × BitVec 31 :=
  (List.range 320).foldl (fun (x : BitVec 320 × BitVec 31) i =>
    let b := bit x.2 30 != bit x.2 27
    (putBit x.1 i b, (x.2 <<< (1 : Nat)) ||| BitVec.ofNat 31 (num b))) (0, s)

/-- Word `c` of a lane's PRBS31 test. -/
def prbsLane (l : Nat) : Nat → BitVec 320 × BitVec 31
  | 0 => prbsWord ((Config.freeLane l 0).setWidth 31)
  | c + 1 => prbsWord (prbsLane l c).2

/-- What lane `l` of SL_SP_TX_DATA carries in PCK cycle `c` of the phase or frame under way; 0 for a lane held idle. -/
def Lnk.txLane (k : Lnk) (l c : Nat) : BitVec 320 :=
  if !bit k.laneEn l then 0
  else match k.st with
    | .down | .detect => 0
    | .ts1 | .lanechk => ts1Block l c
    | .capex => k.ts2Sent l
    | .rateset => Config.freeLane l c
    | .prbs => (prbsLane l c).1
    | .align | .up | .retrain => k.frameWord l c

/-- SL_SP_TX_DATA: lane l in bits [320l+319:320l] (R83). -/
def State.txData (s : State) (c : Nat) : BitVec 2560 :=
  pack 2560 ((List.range 8).map fun l => (320 * l, (s.lnk.txLane l c).toNat))

end Sys2Proof.Machine
end

