-- ==== Sys2Proof/Tests/Slice0.lean ====
section
/-! SUPPORT. The model's own tests: well-formedness, single steps whose results are worked out from the manual, and for every statement
a state and operands that meet its hypotheses. -/
namespace Sys2Proof.Tests

open Sys2Proof.Machine

-- The evaluations below run one after another: together they would need more memory than a check has.
set_option Elab.async false

/-! ### Small states -/

/-- Command `c`, carried out in `s`, leaves a state that passes `p`. -/
def runs (c : Instr) (s : State) (p : State → Bool) : Bool :=
  match exec c s with
  | .next t => p t
  | _ => false

/-- The ring station out of reset with clocks and ports running; the slice is number 0. -/
def ringOn : Ring :=
  { Ring.reset with rsRst := false, coreRst := false, mpRst := false, spRst := false, mckRun := true, pckRun := true, mpUp := true }

/-- A slice in a state of R140. -/
def at_ (st : SlState) : State :=
  { State.reset with ring := ringOn, ctl := { Ctl.reset with st := st, insvc := 0xFFFF }
                     cfg := { Cfg.reset with arr := { ArrCfg.reset with insvc := 0xFFFF, comp := true } } }

/-- A slice in RUNNING. -/
def up : State := at_ .running

/-- The line of address 0 of the memory space, and the buffer-space line of the same number. -/
def l0 : LineId := ⟨false, 0⟩
def b0 : LineId := ⟨true, 0⟩

/-- A request of agent 0x010, which lies on near port A or the ring, with transaction 1. -/
def req (opc : BitVec 5) : Req :=
  { name := ⟨false, 0x010, 1⟩, src := .ring, opc, space := false, cls := 2, scope := 0, vol := false, rel := false, acq := false
    luse := false, stepm := false, ext := false, land := false, lfin := false, lgrp := 0, plen := 0, crv := false, addr := 0, crust := 0
    esrc := 0, lcnt := 0, kop := 0, kfmt := 0, len := 0, mask := 0, since := 0, full := false }

/-- The REQ flit of a request. -/
def reqFlitOf (r : Req) : Flit :=
  mkFlit 0 true 0 r.name 0 true [] [(0, r.opc.toNat), (5, num r.space), (6, r.cls.toNat), (10, r.scope.toNat), (13, num r.vol), (14, num r.rel),
    (15, num r.acq), (16, num r.luse), (17, num r.stepm), (18, num r.ext), (19, num r.land), (20, num r.lfin), (21, r.lgrp.toNat),
    (27, r.plen.toNat), (31, num r.crv), (32, r.addr.toNat), (84, r.crust.toNat), (116, r.esrc.toNat), (142, r.lcnt.toNat), (174, r.kop.toNat),
    (182, r.kfmt.toNat), (186, r.len.toNat), (256, r.mask.toNat)]

/-- An open transient entry of line 0. -/
def entry (why : Why) (st : HtSt) : Ht := Ht.blank l0 why st

/-- A Raw frame of the set of line 0 that holds line 0. -/
def frame0 : Frame :=
  { tag := 0, space := false, fmt := .raw, slots := [{ v := true, enc := 0, lidx := 0, mt := { Meta.clear with crust := crust l0 5 } }], pin := false, data := 5 }

/-- A slice whose home engine holds one request. -/
def waiting (r : Req) : State := { up with home.q := [r] }

/-- A response flit of an agent with a code, for entry `e`. -/
def answer (code e : Nat) : Flit := rspFlit true 0 ⟨true, 0, BitVec.ofNat 12 e⟩ code 0 false 0 0 false 0 0

/-- An entry that waits for the answer of agent 0x010, its line recorded in the snoop filter. -/
def asked (st : HtSt) (fwd : Bool) : Ht :=
  { entry (.req { req 1 with name := ⟨false, 0x020, 1⟩ }) st with
    own := some 0x010, expect := true, fwd, sop := if st = .snpS then snpShared else snpUnique }

/-! ### Well-formedness: an ill-formed operand for each check -/

theorem test_wf_counters : Instr.wf (.counterWrap 160) = false ∧ Instr.wf (.pmcCntLoRead true 160) = false ∧
    Instr.wf (.pmcULoRead true 160) = false ∧ Instr.wf (.counterWrap 159) = true := by decide

theorem test_wf_test_access : Instr.wf (.bypass 1) = false ∧ Instr.wf (.bypass 0xF) = true := by decide

theorem test_wf_ports : Instr.wf (.nearPortReceive .a [(0, 0), (0, 0), (0, 0)]) = false ∧ Instr.wf (.portGrant 6 .east) = false ∧
    Instr.wf (.requestDecode .ring (5 + 2 ^ 20)) = false := by decide

theorem test_wf_saddle : Instr.wf (.lanechkEnd []) = false ∧ Instr.wf (.prbsEnd [] 0) = false ∧
    Instr.wf (.saddleFrameReceive 0 [] ⟨[], 0, 0, 0, 0, 0⟩ ⟨false, 0⟩) = false := by decide

theorem test_wf_line_buffer : Instr.wf (.lineBufferWriteback 48) = false ∧ Instr.wf (.lineBufferWriteback 47) = true := by decide

theorem test_wf_bond : Instr.wf (.initializingDone [(1, 2), (1, 2)]) = false ∧ Instr.wf (.initializingDone [(1, 2), (1, 3)]) = true := by
  decide

theorem test_wf_checks : Instr.wf (.readOnce l0 ⟨.clean, [], .clean, .clean, 5 + 2 ^ 20, []⟩) = false ∧
    Instr.wf (.invRangeLine 0 0 ⟨.clean, [], .clean, .clean, 5 + 2 ^ 20, []⟩) = false ∧
    Instr.wf (.scanRow 0 .agree .ok ⟨.clean, [], .clean, .clean, 5 + 2 ^ 20, []⟩) = false ∧ Instr.wf (.scanRow 0 .agree .ok .ok) = true := by decide

/-! ### The step -/

/-- The front of the queue is carried out and leaves the queue (the row's own interface). -/
theorem test_step_front : (match step { up with pending := [.droopAssert, .droopLift] } with
    | .next t => t.pwr.droop && t.pending == [.droopLift]
    | _ => false) = true := by decide +kernel

/-- R36: POWCYC counts CCK cycles. -/
theorem test_idle_cycle : (match step up with
    | .next t => t.ring.powcyc == 1
    | _ => false) = true := by decide +kernel

theorem witness_IdleStepIsOneCycle : State.reset.pending = [] ∧ State.reset.ctl.st = .off ∧ up.pending = [] ∧ up.ctl.st ≠ .off := by decide +kernel

/-- A frame, an open entry and a command that waits, in canonical form. -/
def busy : State := { up with arr.frames := [(0, frame0)], pending := [.droopAssert] }

theorem witness_CanonicalKept : busy.canonical = true ∧ ∃ t, step busy = .next t := ⟨by decide +kernel, _, rfl⟩

theorem witness_ControlKept : busy.controlled ∧ ∃ t, step busy = .next t :=
  ⟨by simp [State.controlled, busy, up, at_, ringOn, Ctl.reset], _, rfl⟩

theorem witness_HandshakeAndScreeKept : busy.handshake ∧ busy.screeFits ∧ ∃ t, step busy = .next t :=
  ⟨by simp [State.handshake, busy, up, at_, State.reset, Pwr.reset], by simp [State.screeFits, busy, up, at_, State.reset, Chks.reset], _, rfl⟩

/-! ### Frames -/

theorem witness_StationFrame : ∃ t, exec .droopAssert up = .next t := ⟨_, rfl⟩

theorem witness_WorkFrame : Instr.administers (.readOnce l0 .ok) = false ∧ ∃ t, exec (.readOnce l0 .ok) up = .next t := ⟨rfl, _, rfl⟩

theorem witness_SettingsFrame : Instr.writesRegister .droopAssert = false ∧ Instr.resets .droopAssert = false ∧
    ∃ t, exec .droopAssert up = .next t := ⟨rfl, rfl, _, rfl⟩

theorem witness_FlagsStay : Instr.writesRegister .droopAssert = false ∧ Instr.resets .droopAssert = false ∧
    (∃ t, exec .droopAssert up = .next t) ∧ 0 < up.flags.length ∧ 17 < up.flags.length := ⟨rfl, rfl, ⟨_, rfl⟩, by decide, by decide⟩

/-! ### Registers -/

theorem witness_ResetWords : up.ctl.st ≠ .off ∧ up.pwr.req = false := by decide

theorem witness_WriteOneClears : (0x0028 ∈ w1cOffsets ∧ up.performs true 0x0028 = true) ∧ (0x5A20 ∈ w1cOffsets ∧ up.performs true 0x5A20 = true) ∧
    ((at_ .fenced).performs true 0x3818 = true ∧ (at_ .fenced).ctl.st ≠ .off) ∧ up.ctl.st ≠ .off ∧ up.coreUp = true := by decide +kernel

/-- R14: LNK_ERR 0b11 written with 0b01 keeps bit 1. -/
theorem test_w1c : runs (.registerWrite ⟨true, goodPar 0x3818 1⟩ (wordAddr 0x3818) 1 0) { up with lnk.err := 3 } (fun t => t.lnk.err == 2) = true := by
  decide +kernel

theorem witness_WritesByAccess : (up.ctl.st ≠ .off ∧ (0x0034, 6) ∈ enableOffsets ∧ up.performs true 0x0034 = true) ∧
    ((0x4010, 4) ∈ enableOffsets ∧ up.performs true 0x4010 = true) ∧ (0x0000 ∈ roOffsets ∧ up.performs true 0x0000 = true) ∧
    (0xC03C ∈ roOffsets ∧ up.performs true 0xC03C = true) := by decide +kernel

/-- One access for each of the five ways to be turned away. -/
theorem witness_RefusedWrites : up.ctl.st ≠ .off ∧ (true ≠ (true ^^ parity (1 : BitVec 14))) ∧ (true ≠ parity (0 : Word)) ∧
    ((at_ .fenced).ctl.st = .fenced ∧ ringReg (4 * (wordAddr 0x0400).toNat) = false) ∧
    (0x5B00 ≤ 4 * (wordAddr 0x5B00).toNat ∧ 4 * (wordAddr 0x5FFC).toNat ≤ 0x5FFC) ∧ up.regRead (4 * (wordAddr 0x0010).toNat) = none := by
  decide +kernel

theorem witness_PowcycPairRead : up.ctl.st ≠ .off := by decide

/-- A slice whose ENERGY section asks for reports every 2 cycles. -/
def metered : State := { up with cfg.ener := { EnCfg.reset with erptEn := true, erper := 1 } }

theorem witness_EnergyReported : up.coreUp = true ∧ up.pwr.ehi.length = 16 ∧ metered.coreUp = true ∧ metered.cfg.ener.erptEn = true ∧
    metered.ring.powcyc.toNat % 2 ^ metered.cfg.ener.erper.toNat = 0 := by decide

/-- The user window of counters 0 and 159 permitted. -/
def opened : State := { up with pmc.uperm := [1, 0, 0, 0, 0x80000000] }

theorem witness_CounterPairReads : up.coreUp = true ∧ opened.coreUp = true ∧ 159 < 160 ∧
    bit (nth opened.pmc.uperm (159 / 32) 0) (159 % 32) = true ∧ bit (nth opened.pmc.uperm (0 / 32) 0) (0 % 32) = true ∧
    bit (nth up.pmc.uperm (159 / 32) 0) (159 % 32) = false := by decide

theorem witness_ScreeRetired : up.coreUp = true := by decide

/-! ### The control plane -/

theorem witness_StateErrors : up.coreUp = true ∧ up.legal ((1 : Word).extractLsb' 0 4).toNat = false ∧
    up.legal ((8 : Word).extractLsb' 0 4).toNat = false ∧ up.ctl.st ≠ .loading ∧
    ({ at_ .loading with ctl.phase := .checking }.ctl.phase ≠ .receiving) := by decide +kernel

/-- A slice that receives an image, from QUIESCED. -/
def loading : State := { at_ .loading with ctl.lorig := .quiesced, ctl.phase := .receiving }

theorem witness_CommandsLead :
    ((at_ .shapeless).coreUp = true ∧ (at_ .shapeless).ring.tstMode = false ∧ (at_ .shapeless).legal 1 = true) ∧ (at_ .quiesced).legal 1 = true ∧
    (at_ .drained).legal 1 = true ∧ (loading.coreUp = true ∧ loading.ring.tstMode = false ∧ loading.legal 2 = true) ∧
    (up.coreUp = true ∧ up.ring.tstMode = false ∧ up.legal 3 = true ∧ up.legal 6 = true) ∧
    ((at_ .quiesced).coreUp = true ∧ (at_ .quiesced).ctl.st = .quiesced ∧ (at_ .quiesced).ctl.busy = false ∧ (at_ .quiesced).ring.tstMode = false) ∧
    (let s := { at_ .quiesced with ctl.busy := true, pin.epSf := 8192 }
     s.ctl.busy = true ∧ s.pin.epSf = 8192 ∧ (∀ p ∈ s.pin.epTag, p = 12288) ∧ (∀ e ∈ s.home.ht, e.2.st ≠ .binv ∧ e.2.st ≠ .move) ∧
       (∀ w ∈ s.mp.hold, w.cause ≠ .walk)) := by decide +kernel

theorem witness_ResumeAndUnshape : (at_ .quiesced).coreUp = true ∧ (at_ .quiesced).ring.tstMode = false ∧ (at_ .quiesced).ctl.st = .quiesced ∧
    (at_ .quiesced).ctl.busy = false ∧ (at_ .quiesced).ctl.linkChanged = false ∧ (at_ .drained).coreUp = true ∧
    (at_ .drained).ring.tstMode = false ∧ (at_ .drained).ctl.st = .drained := by decide

/-- The first word, good and bad, and the last of an image of 40 bytes. -/
theorem witness_ImageWordsReceived : loading.coreUp = true ∧ loading.ctl.st = .loading ∧ loading.ctl.phase = .receiving ∧
    earlyErr loading.ctl.imgCnt.toNat 0x53484150 = none ∧ (earlyErr loading.ctl.imgCnt.toNat 0).isSome = true ∧
    (let s := { loading with ctl.img := [0, 0, 0, 0, 0, 0, 40, 0, 0], ctl.imgCnt := 9 }
     earlyErr s.ctl.imgCnt.toNat 0 = none ∧ 2 ≤ s.ctl.imgCnt.toNat ∧
       4 * (s.ctl.imgCnt.toNat + 1) = { s with ctl.img := (0 : Word) :: s.ctl.img, ctl.imgCnt := s.ctl.imgCnt + 1 }.imgLength) := by
  decide +kernel

/-! An image that is good from SHAPELESS: the header, PROFILE 1, a map that gives every loaf to slice 5, EPOCH 0. -/

def imageOf (m : List Word) (c : Word) : List Word :=
  [0x53484150, 0x00000001, 16456, 0, 0xFFFFFFFF, 0, 0, 3, c, 7, 0x0001, 4, 1, 0x0020, 16384] ++ (m ++ [0x0022, 4, 0])

def sectsOf (m : List Word) : List Sect := [⟨1, 10, [1]⟩, ⟨0x20, 13, m⟩, ⟨0x22, 13 + 4098, [0]⟩]

/-- The load of such an image, its words received. -/
def first (m : List Word) : State :=
  { at_ .loading with ctl.lorig := .shapeless, ctl.phase := .checking
                      ctl.img := (imageOf m (crc32c (imageBytes (imageOf m 0)))).reverse }

theorem image_header (m : List Word) : headerErr 0 (imageOf m (crc32c (imageBytes (imageOf m 0)))) = none := by
  have : imageBytes (imageOf m (crc32c (imageBytes (imageOf m 0)))) = imageBytes (imageOf m 0) := rfl
  simp only [headerErr, this]
  generalize crc32c (imageBytes (imageOf m 0)) = c
  simp [wordAt, nth, imageOf, Config.blkId, fld]

theorem image_sections (m : List Word) (h : m.length = 4096) (c : Word) : sections (imageOf m c) = .ok (sectsOf m) := by
  simp [sections, imageOf, wordAt, nth, fld, parseSects, maxVlen, sectsOf, h]

theorem image_sound (m n : List Word) (h : m.length = 4096) (h5 : ∀ x ∈ m, x = 5) (c : Word) :
    sectsErr (first n) (imageOf m c) (sectsOf m) = none := by
  have hp : partialErr (first n).ctl.lorig (first n).cfg (first n).ctl.epoch (imageOf m c) (sectsOf m) = none := by
    simp [partialErr, partialImage, sectOf, sectsOf, imageOf, wordAt, nth, bit, first]
  have he : edgeErr (first n).ring.tieEdge (sectsOf m) = none := by simp [edgeErr, sectOf, sectsOf]
  have hr : ∀ a : Cfg, (sectsOf m).findSome? (sectRange (first n).ctl.lorig (first n).cfg a (sectsOf m)) = none := by
    intro a
    simp [sectsOf, sectRange, exactVlen, wordOk, windowsErr, first, h, profWordOk, wordAt, nth, bit, fld, within, between]
    simp [List.find?_eq_none.mpr]
  have ha : mapErr (first n).ring.tieSlice (cfgAfter (first n).cfg (imageOf m c) (sectsOf m)).arr ⟨0x20, 13, m⟩ = none := by
    have hz : (List.zip (List.range 4096) m).find? (fun p => !(within p.2 0xFFFF &&
        entryOk (first n).ring.tieSlice (cfgAfter (first n).cfg (imageOf m c) (sectsOf m)).arr p.2)) = none := by
      rw [List.find?_eq_none]
      intro p hp
      have := h5 _ (List.of_mem_zip hp).2
      rw [this]; simp [entryOk, fld, within, first, at_, ringOn, Ring.reset]
    simp only [mapErr, h, hz]; rfl
  have hm : mapsErr (first n).ring.tieSlice (cfgAfter (first n).cfg (imageOf m c) (sectsOf m)) (imageOf m c) (sectsOf m) = none := by
    simp [mapsErr, sectOf, sectsOf, partialImage, imageOf, wordAt, nth, bit]
    simpa [sectsOf, imageOf] using ha
  have hf : floorErr (cfgAfter (first n).cfg (imageOf m c) (sectsOf m)) (sectsOf m) = none := by
    have ea : (cfgAfter (first n).cfg (imageOf m c) (sectsOf m)).arr = profArr 1 := rfl
    have ep : (cfgAfter (first n).cfg (imageOf m c) (sectsOf m)).pin = profPin (profArr 1) (profArr 1) := rfl
    have e1 : ¬ ((profArr 1).cairnw.toNat + (profArr 1).bufw.toNat > 12) := by decide +kernel
    have e2 : ((List.range 16).find? fun i =>
        (nth (profPin (profArr 1) (profArr 1)).quota i 0).toNat > pinShare (profArr 1) (profArr 1).insvc) = none := by decide +kernel
    simp only [floorErr, ea, ep, e1, if_false, e2]
  have ho : overbookErr (cfgAfter (first n).cfg (imageOf m c) (sectsOf m)) (sectsOf m) = none := by rfl
  simp only [sectsErr, hp, he, hr, hm, hf, ho]; rfl

theorem image_good (m : List Word) (h : m.length = 4096) (h5 : ∀ x ∈ m, x = 5) :
    (first m).ctl.st = .loading ∧ (first m).ctl.lorig = .shapeless ∧ ∃ i, (first m).checkImage (first m).ctl.img.reverse = .ok i := by
  refine ⟨rfl, rfl, ?_⟩
  have ht : (first m).ring.tieItag = 0 := rfl
  have hi : (first m).ctl.img.reverse = imageOf m (crc32c (imageBytes (imageOf m 0))) := List.reverse_reverse _
  simp only [State.checkImage, hi, ht, image_header, image_sections m h, image_sound m m h h5]
  exact ⟨_, rfl⟩

/-- A header without sections, as a partial image. -/
def small (c : Word) : List Word := [0x53484150, 0x00010001, 40, 0, 0xFFFFFFFF, 0, 0, 0, c, 7]

/-- A load from QUIESCED whose words have come. -/
def second (c : Word) : State := { at_ .loading with ctl.lorig := .quiesced, ctl.phase := .checking, ctl.img := (small c).reverse }

theorem witness_LoadEnds :
    (∃ m, (first m).ctl.st = .loading ∧ (first m).ctl.phase = .checking ∧ (first m).ctl.lorig = .shapeless ∧
      (∃ i, (first m).checkImage (first m).ctl.img.reverse = .ok i) ∧
      (let s := { first m with ctl.phase := .applying }
       s.ctl.st = .loading ∧ s.ctl.phase = .applying ∧ s.ctl.lorig = .shapeless ∧ ∃ i, s.checkImage s.ctl.img.reverse = .ok i)) ∧
    ((second 0).ctl.st = .loading ∧ (second 0).ctl.phase = .checking ∧ (match (second 0).checkImage (second 0).ctl.img.reverse with
        | .ok _ => false
        | .error e => e == ⟨6, 0, 8⟩) = true) ∧
    (let s := { second 0x0A86335C with ctl.phase := .applying }
     s.ctl.st = .loading ∧ s.ctl.phase = .applying ∧ s.ctl.lorig ≠ .shapeless ∧
      (match s.checkImage s.ctl.img.reverse with
        | .ok i => i.serial == 7
        | .error _ => false) = true) := by
  refine ⟨?_, ⟨rfl, rfl, by decide +kernel⟩, by decide +kernel⟩
  have h : ∀ m : List Word, m.length = 4096 → (∀ x ∈ m, x = 5) → _ := fun m hl h5 =>
    let g := image_good m hl h5
    (⟨g.1, rfl, g.2.1, g.2.2, g.1, rfl, g.2.1, g.2.2⟩ :
      (first m).ctl.st = .loading ∧ (first m).ctl.phase = .checking ∧ (first m).ctl.lorig = .shapeless ∧
      (∃ i, (first m).checkImage (first m).ctl.img.reverse = .ok i) ∧
      (let s := { first m with ctl.phase := .applying }
       s.ctl.st = .loading ∧ s.ctl.phase = .applying ∧ s.ctl.lorig = .shapeless ∧ ∃ i, s.checkImage s.ctl.img.reverse = .ok i))
  exact ⟨_, h (List.replicate 4096 5) List.length_replicate fun _ hx => List.eq_of_mem_replicate hx⟩

/-- INITIALIZING after a RESUME. -/
def starting : State := { at_ .initializing with ctl.initResume := true }

theorem witness_InitializingEnds : starting.ctl.st = .initializing ∧ starting.ring.bondDone = false ∧ starting.ctl.initResume = true ∧
    starting.cfg.arr.insvc &&& ~~~failMask [(3, 0)] ≠ 0 ∧ (at_ .initializing).cfg.link.enable = false ∧
    (let s := { at_ .initializing with cfg.arr.insvc := 8 }
     s.ctl.st = .initializing ∧ s.ring.bondDone = false ∧ s.cfg.arr.insvc &&& ~~~failMask [(3, 0)] = 0) := by decide +kernel

/-- R147, R148: the bank whose connection fails leaves service. -/
theorem test_bond_fail : runs (.initializingDone [(3, 0)]) starting
    (fun t => t.ctl.insvc == 0xFFF7 && t.ctl.st == .running && bit t.ctl.irq 3 && nth t.arr.lfsr 1 0 == 0) = true := by decide +kernel

theorem witness_QuiesceAndDrainEnd : ((at_ .quiescing).ctl.st = .quiescing ∧ (at_ .quiescing).quiet = true) ∧
    (let s := at_ .draining
     s.ctl.st = .draining ∧ s.drainable = true ∧ s.arr.frames = [] ∧ s.knd.ft = [] ∧ s.mp.hold = [] ∧ s.ring.mpUp = true) := by
  decide +kernel

/-! ### Other register commands -/

theorem witness_CounterControl : up.coreUp = true := by decide

/-- Agent 0x123 declared dead, its walk done, and agent 0x124 whose walk runs. -/
def mourning : State :=
  { up with home.dead := ({ agent := 0x123, np := 0, done := true, valid := true, left := 0, opens := [] } : Dead) ::
      ({ agent := 0x124, np := 0, done := false, valid := true, left := 5, opens := [] } : Dead) :: List.replicate 14 Dead.reset }

/-- Every row of the dead table taken. -/
def full : State := { up with home.dead := List.replicate 16 { agent := 0x123, np := 0, done := true, valid := true, left := 0, opens := [] } }

theorem witness_DeadCommands :
    (up.coreUp = true ∧ (at_ .shapeless).coreUp = true ∧ (at_ .shapeless).declares = false ∧ (at_ .shapeless).home.dead.length = 16) ∧
    (mourning.isDead 0x123 = true ∧ mourning.home.dead.length = 16) ∧ (full.declares = true ∧ full.isDead 7 = false ∧ full.deadFree = none) ∧
    (up.declares = true ∧ up.isDead 7 = false ∧ up.deadFree = some 0 ∧ up.home.ht = [] ∧ up.deadRow 7 = none) ∧
    ((mourning.deadRow 0x123 = some 0 ∧ (mourning.home.dead[0]?.any fun d => d.done) = true) ∧
      mourning.deadRow 0x124 = some 1 ∧ (mourning.home.dead[1]?.any fun d => !d.done) = true) := by decide +kernel

/-- An edge slice with its saddle port enabled, and its link in a state. -/
def edge (st : LkSt) : State := { up with ring.tieEdge := true, lnk.cfg.enable := true, lnk.st := st }

theorem witness_LinkCommands :
    ((edge .down).ctl.st ≠ .off ∧ (edge .down).lnk.st ≠ .retrain ∧ (edge .down).mayTrain = true ∧ (edge .down).training = false ∧
      (edge .down).lnk.errc ≠ 0x0A ∧ (edge .down).lnk.errc ≠ 0x0B) ∧
    ({ edge .up with lnk.served := true }.lnk.st = .up ∧ { edge .up with lnk.served := true }.lnk.served = true) ∧
    ((edge .prbs).lnk.st ≠ .retrain ∧ (edge .prbs).training = true ∧
      { edge .prbs with ctl.st := .linking }.ctl.st = .linking) := by decide +kernel

/-! ### Test access, resets, clocks -/

theorem witness_TestAccess : ({ up with ring.tapRst := false }.ring.tapRst = false ∧ up.tap.st = .testLogicReset ∧ ((0xF : BitVec 4) ≠ 1)) ∧
    { up with tap.st := .runTestIdle }.tap.st = .runTestIdle ∧ { up with ring.tapRst := true }.ring.tapRst = true ∧
    { up with tap.ir := 1 }.tap.ir = 1 ∧ (Instrument.bondChain ≠ .stateCapture) ∧ (up.ring.tstMode = false) ∧
    (Instrument.selfTest ≠ .bondChain) := by decide

theorem witness_CoreResets : (State.reset.ctl.st = .off) ∧ ((at_ .fenced).ctl.st = .fenced) ∧ (up.ctl.st ≠ .off) := by decide

theorem witness_MemoryPortUpDown : up.ctl.st ≠ .off ∧ up.ring.mpRst = false ∧ up.home.ht = [] ∧ up.ring.mpUp = true ∧
    (let s := { up with ring.mpRst := true, ring.mpUp := false }
     s.ring.mpRst = true ∧ s.ring.mckRun = true ∧ s.ring.mpUp = false) ∧
    { up with ring.mpRst := true, ring.mckRun := false }.ring.mckRun = false ∧
    (let s := { up with ring.mpUp := false }
     s.ring.mpRst = false ∧ s.ring.mpNeedRst = false ∧ s.ring.mpUp = false) := by decide

theorem witness_PhySide : ((edge .up).ctl.st ≠ .off ∧ (edge .up).ring.spRst = false ∧ (edge .up).ring.tieEdge = true ∧
      (edge .up).lnk.cfg.enable = true ∧ (edge .up).lnk.st = .up ∧ (edge .up).watchPck = true ∧ up.watchPck = false ∧
      { edge .up with lnk.served := true }.lnk.served = true) ∧
    (let s := { edge .down with ring.spRst := true, lnk.errc := 0x0B }
     s.ring.spRst = true ∧ s.lnk.st = .down ∧ s.lnk.errc = 0x0B ∧ s.mayTrain = true ∧ s.ctl.st = .running ∧ s.ring.pckRun = true) ∧
    (let s := { edge .down with ring.spRst := true, ring.pckRun := false, lnk.errc := 0x0B }
     s.ring.spRst = true ∧ s.lnk.st = .down ∧ s.lnk.errc = 0x0B ∧ s.mayTrain = true ∧ s.ring.pckRun = false) ∧
    (let s := { edge .down with lnk.errc := 0x0A }
     s.ring.spRst = false ∧ s.lnk.st = .down ∧ s.lnk.errc = 0x0A ∧ s.mayTrain = true ∧ s.ctl.st = .running) := by decide +kernel

/-! ### Power and counters -/

theorem witness_PowerCaps : up.coreUp = true ∧ up.pwr.droop = false ∧ up.pwr.fstate ≠ .preparing ∧
    { up with pwr.fstate := .preparing }.pwr.fstate = .preparing ∧ { up with pwr.droop := true }.pwr.droop = true := by decide

/-- R435, R436: droop caps knead starts at 4/8, throttle level 5 both at 3/8. -/
theorem test_caps : { up with pwr.droop := true }.capNK = 4 ∧ { up with pwr.droop := true, pwr.thr := 5 }.capNK = 3 ∧
    { up with pwr.thr := 7 }.capNB = 1 := by decide

theorem witness_FrequencyHandshake :
    (up.ctl.st ≠ .off ∧ up.pwr.req = false ∧ (at_ .fenced).ctl.st = .fenced ∧ up.ctl.st ≠ .fenced ∧ { up with pwr.fixed := true }.pwr.fixed = true) ∧
    ((at_ .initializing).ctl.st = .initializing ∧ (at_ .initializing).pwr.fixed = false) ∧
    ({ up with pwr.droop := true }.pwr.droop || false) = true ∧ (up.pwr.droop || true) = true ∧ up.ctl.st ≠ .initializing ∧
    ({ up with pwr.fstate := .deferred }.pwr.fstate = .deferred ∧ { up with pwr.fstate := .preparing }.pwr.fstate = .preparing) ∧
    (let s := { up with pwr.req := true, pwr.fstate := .acked, cfg.qos.rlEn := true }
     s.pwr.req = true ∧ s.pwr.fstate = .acked ∧ s.mp.rdFifo = [] ∧ s.cfg.qos.rlEn = true) ∧ up.cfg.qos.rlEn = false := by decide

theorem witness_CountingModes : (0 : BitVec 16).extractLsb' 0 2 = 0 ∧ (1 : BitVec 16).extractLsb' 0 2 = 1 ∧ (2 : BitVec 16).extractLsb' 0 2 = 2 := by
  decide

/-- Counter 3 about to wrap, with FOVF at 1. -/
def wrapping : State :=
  { up with pmc.cnt := (List.replicate 160 0).set 3 (BitVec.allOnes 40), cfg.count := (List.replicate 160 0).set 3 8, pmc.now := [⟨3, 0, 1⟩] }

theorem witness_CounterWraps : 3 < 160 ∧ wrapping.wraps 3 = true ∧ wrapping.pwr.droop = false ∧ wrapping.pwr.ack = false ∧
    wrapping.chained (3 + 1) = false ∧ bit (wrapping.mode 3) 3 = true := by decide +kernel

/-- R450, R455: the counter wraps to 0 and FREEZE is set. -/
theorem test_counter_wrap : runs (.counterWrap 3) wrapping (fun t => nth t.pmc.cnt 3 1 == 0 && t.pmc.freeze && t.pmc.fvalid) = true := by
  decide +kernel

/-! ### Ports -/

/-- A response flit for slice 9, and a waiting flit of its kind. -/
def passing : Flit := rspFlit true 9 ⟨true, 9, 5⟩ 0 0 false 0 0 false 0 0
def waitingFlit : OutFlit := { f := passing, cls := 2, sample := false, own := true, bad := 0, since := 0 }

/-- An east out-link at which one flit waits. -/
def queued : State := { up with port.east.inj := { Inj.reset with rsp := [waitingFlit] } }

/-- A ring station whose REQ queue is full. -/
def crowded : State := { up with port.rx.req := List.replicate 32 ⟨reqFlitOf (req 2), false⟩ }

theorem witness_RingArrivals :
    (up.ctl.st ≠ .off ∧ flitVc passing ≠ 1 ∧ (flitDtyp passing && flitDst passing = up.ring.tieSlice && !flitBcast passing) = false ∧
      up.saddleBound passing = false ∧ (up.link .east).ins = none ∧ (up.link .east).arm = false) ∧
    (let s := { up with port.east.ins := some passing, port.east.insP := flitPar passing }
     (s.link .east).ins = some passing) ∧
    (let s := { queued with port.east.arm := true }
     (s.link .east).arm = true ∧ (s.link .east).ins = none ∧ (s.link .east).inj.waiting = true ∧ (s.link .east).inj.run < 4) ∧
    (let f := reqFlitOf (req 2)
     flitVc f ≠ 1 ∧ flitVc f = 0 ∧ (flitDtyp f && flitDst f = up.ring.tieSlice && !flitBcast f) = true ∧ up.coreUp = true ∧
       up.reqRoom f = true ∧ crowded.reqRoom f = false ∧ (crowded.link .east).ins = none ∧ (crowded.link .east).arm = false) := by
  decide +kernel

/-- R58: the declined flit goes on with BNC 1. -/
theorem test_declined : runs (.ringFlitArrival .east (reqFlitOf (req 2)) (flitPar (reqFlitOf (req 2))) []) crowded
    (fun t => (t.port.east.out.map flitBnc) == [1] && t.port.rx.req.length == 32) = true := by decide +kernel

theorem witness_RingInjection : queued.ctl.st ≠ .off ∧ (queued.link .east).ins = none ∧ (queued.link .east).arm = false ∧
    (queued.link .east).inj.waiting = true ∧ { up with port.east.ins := some passing }.port.east.ins = some passing ∧
    turnOf (queued.link .east).inj.turn (fun v => !((queued.link .east).inj.free v).isEmpty) = some 2 := by decide +kernel

/-- Near port A with a flit to send and credits. -/
def near : State := { up with port.npa := { NPort.reset with held := [1, 1, 1, 1], inj := { Inj.reset with rsp := [waitingFlit] } } }

theorem witness_NearPorts : near.coreUp = true ∧ near.nearDead .a = false ∧ flitVc (reqFlitOf (req 2)) = 0 ∧
    flitVc (snpFlit 9 0 0 false true false 0 l0 0 0 false false) = 1 ∧
    (let s := { up with home.ht := [(0, asked .snpS false)] }
     let f := rspFlit true 0 ⟨false, 0x010, 0⟩ 0x08 0 false 0 0 false 0 0
     s.coreUp = true ∧ s.nearDead .a = false ∧ flitVc f = 2 ∧ (rspType f).toNat ≤ 16 ∧ s.deadReq (flitName f) = false ∧ s.rspOpen f = true) ∧
    (let s := { up with port.npa.rx.resv := [⟨(req 6).name, 1⟩] }
     let f := datFlit true 0 (req 6).name 0 false 1 false false 0 7
     s.coreUp = true ∧ s.nearDead .a = false ∧ flitVc f = 3 ∧ s.isLineData f = false ∧ txCount (s.near .a).rx.resv (flitName f) > 0) ∧
    turnOf (near.near .a).inj.turn (fun v => !((near.near .a).inj.free v).isEmpty && nth (near.near .a).held v 0 != 0) = some 2 ∧
    (let deadNear : Dead := { agent := 7, np := 1, done := false, valid := true, left := 1, opens := [] }
     let s := { near with home.dead := deadNear :: List.replicate 15 Dead.reset }
     s.coreUp = true ∧ s.nearDead .a = true ∧ (s.near .a).inj.waiting = true) := by decide +kernel

/-- R64: after core reset the slice owes 32 credits of REQ, and returns 2 in a cycle. -/
theorem test_near_credits : runs (.nearPortReceive .a []) { up with port.npa.owed := [32, 0, 32, 64] }
    (fun t => t.port.npa.owed == [30, 0, 30, 62] && t.port.npa.crd == 0xA2) = true := by decide +kernel

/-- One ready message for a port. -/
def sending (p : BitVec 3) : State :=
  { up with port.ready := [{ port := p, cls := 2, vc := 2, flits := [passing], pay := [], link := none, line := none, sample := false, own := true, sad := false }] }

/-- A class with 256 credits at port 0. -/
def saved : State := { up with qos.k := (List.replicate 6 (List.replicate 16 0)).set 0 ((List.replicate 16 0).set 2 256) }

/-- A read that waits for the command channel. -/
def fetching : State :=
  { up with home.ht := [(0, entry (.req (req 2)) .mem)]
            mp.miss := [(0, { line := l0, st := .alloc, ent := 0, waiters := [], reissue := 0, cls := 2, merge := true, ord := 0 })] }

/-- A held write of line 0. -/
def wr0 (st : WSt) : Wr :=
  { tag := 0, line := l0, data := 5, pois := false, crust := 0, cls := 2, ord := 0, rdy := 0, iss := none, again := false, st := st
    wdSent := false, errs := 0, comps := [], cause := .other }

def storing : State := { up with mp.hold := [wr0 .ready] }

theorem witness_Arbitration : saved.arbitrate 0 [1, 2] = some (1, true) ∧ up.arbitrate 0 [1, 2] = some (0, false) ∧
    ((sending 0).ctl.st ≠ .off ∧ (sending 0).arbitrate 0 (((sending 0).readyAt 0 .east).map fun x => x.2.cls) = some (0, false) ∧
      ((sending 0).readyAt 0 .east)[0]?.isSome = true) ∧
    ((sending 1).coreUp = true ∧ (sending 1).arbitrate 1 (((sending 1).readyAt 1 .east).map fun x => x.2.cls) = some (0, false) ∧
      ((sending 1).readyAt 1 .east)[0]?.isSome = true) ∧
    ((sending 2).coreUp = true ∧ (sending 2).arbitrate 2 (((sending 2).readyAt 2 .east).map fun x => x.2.cls) = some (0, false) ∧
      ((sending 2).readyAt 2 .east)[0]?.isSome = true) ∧
    (match fetching.pick with
      | .read t _ _ => t == 0
      | _ => false) = true ∧
    (match storing.pick with
      | .write w _ => w.tag == 0
      | _ => false) = true := by decide +kernel

/-- A slice with one request at its front end. -/
def arrived (r : Req) : State := { up with port.rx.req := [⟨reqFlitOf r, false⟩] }

/-- A slice that may be the home of nothing: every loaf is given to slice 0, and it is slice 7. -/
def elsewhere : State := { up with ring.tieSlice := 7 }

theorem witness_FrontEnd :
    ((at_ .quiesced).isMove (req 2) = false ∧ (at_ .quiesced).ctl.st ≠ .running ∧ (at_ .quiesced).evictable (req 2) = false) ∧
    (up.isMove { req 6 with name := ⟨true, 9, 1⟩ } = false ∧ { req 6 with name := ⟨true, 9, 1⟩ }.opc = 6) ∧
    (up.isMove (req 15) = false ∧ up.ctl.st = .running ∧ (req 15).opc.toNat ≥ 15) ∧
    ({ req 2 with ext := true }.opc.toNat < 15 ∧ { req 2 with ext := true }.ext = true ∧ { req 2 with ext := true }.opc ≠ 6) ∧
    ((req 4).name.sty = false ∧ (req 4).opc.toNat < 15 ∧ (req 4).ext = false ∧ plenOk (req 4).opc (req 4).plen.toNat = false) ∧
    ((req 2).opc.toNat ≤ 7 ∧ (req 2).ext = false ∧ plenOk (req 2).opc (req 2).plen.toNat = true ∧ up.homed (req 2) = true ∧
      elsewhere.homed (req 2) = false) ∧
    (let r := { req 4 with plen := 2 }
     let s := { up with port.rx.pay := [⟨r.name, [⟨0, 0, false, 3, false⟩]⟩] }
     r.opc.toNat ≤ 7 ∧ plenOk r.opc r.plen.toNat = true ∧ payBad r (s.payload r) = true) ∧
    ((arrived (req 15)).coreUp = true ∧ (arrived (req 15)).nothingWaits ∧
      (arrived (req 15)).nextReq .ring = some (0, ⟨reqFlitOf (req 15), false⟩, req 15) ∧ (arrived (req 15)).decodeCheck (req 15) = some 3) ∧
    ((arrived (req 2)).nextReq .ring = some (0, ⟨reqFlitOf (req 2), false⟩, req 2) ∧ (arrived (req 2)).decodeCheck (req 2) = none ∧
      (req 2).opc.toNat ≤ 9) ∧
    (let s := { up with port.rx.dat := [⟨datFlit true 0 (req 6).name 0 false 1 false false 0 7, false⟩] }
     s.coreUp = true ∧ s.nextPay .ring = some (0, ⟨datFlit true 0 (req 6).name 0 false 1 false false 0 7, false⟩) ∧
       (∀ e ∈ s.home.ht, e.2.st ≠ .wb) ∧ (∀ r ∈ s.home.q, (r.name = (req 6).name && (r.opc = 4 || r.opc = 6)) = false)) ∧
    (let q : QFlit := ⟨datFlit true 0 (req 6).name 0 false 7 false false 0 7, false⟩
     let s := { waiting { req 6 with plen := 2 } with port.rx.dat := [q] }
     s.nextPay .ring = some (0, q) ∧ (∀ e ∈ s.home.ht, e.2.st ≠ .wb) ∧ s.nothingWaits ∧
       s.home.q.find? (fun r => r.name = flitName q.f && (r.opc = 4 || r.opc = 6)) = some { req 6 with plen := 2 } ∧
       s.deadReq (req 6).name = false ∧ (q.bad || flitDkind q.f != dkindOf 6) = true) ∧
    ((arrived { req 8 with plen := 1 }).nothingWaits ∧
      (arrived { req 8 with plen := 1 }).payWaiter .ring = some (0, { req 8 with plen := 1 })) := by
  refine ⟨?_, ?_, ?_, ?_, ?_, ?_, ?_, ?_, ?_, ?_, ?_, ?_⟩ <;> decide +kernel

/-- R474: an opcode above 14 is answered ERR_DECODE. -/
theorem test_bad_opcode : runs (.requestDecode .ring 0) (arrived (req 15)) (fun t => (t.port.ready.map fun m => m.flits) == [(up.compMsg (req 15) 3 false 0 false).flits]) = true := by
  decide +kernel

/-! ### The home engine -/

/-- A move that arrives in QUIESCED: a WRITE_UNIQUE of slice 9. -/
def move9 : Req := { req 6 with name := ⟨true, 9, 1⟩ }

/-- A final write. -/
def final0 : Req := { req 6 with ext := true, land := true, lfin := true }

/-- A slice in which agent 0x010 has been declared dead. -/
def bereft (r : Req) : State :=
  { waiting r with home.dead := ({ agent := 0x010, np := 0, done := false, valid := true, left := 8192, opens := [] } : Dead) ::
      List.replicate 15 Dead.reset }

theorem witness_RequestsTakeTheirTurn :
    ((waiting (req 2)).bankChoice ((waiting (req 2)).bankFor (req 2)) = some (req 2)) ∧
    (waiting (req 0)).starts ∧ (waiting (req 0)).wakeBank.turnFor l0 (fun r => r.opc = 0) = some (req 0) ∧
    (waiting (req 1)).wakeBank.turnFor l0 (fun r => r.opc = 1) = some (req 1) ∧ (waiting (req 2)).wakeBank.turnFor l0 (fun r => r.opc = 2) = some (req 2) ∧
    (waiting (req 3)).wakeBank.turnFor l0 (fun r => r.opc = 3) = some (req 3) ∧
    ((waiting (req 4)).wakeBank.turnFor l0 (fun r => r.opc = 4) = some (req 4) ∧ (waiting (req 4)).transient l0 = false) ∧
    (waiting (req 5)).wakeBank.turnFor l0 (fun r => r.opc = 5) = some (req 5) ∧
    (waiting (req 6)).wakeBank.turnFor l0 (fun r => r.opc = 6 && !(waiting (req 6)).isMove r && (!r.final || ((waiting (req 6)).released r).isSome)) =
      some (req 6) ∧
    (let s := { at_ .quiesced with home.q := [move9] }
     s.wakeBank.turnFor l0 (fun r => s.isMove r) = some move9) ∧
    (waiting final0).wakeBank.turnFor l0 (fun r => r.final && ((waiting final0).released r).isNone && !(waiting final0).isMove r) = some final0 ∧
    (waiting (req 7)).wakeBank.turnFor l0 (fun r => r.opc = 7) = some (req 7) ∧ (waiting (req 8)).wakeBank.turnFor l0 (fun r => r.opc = 8) = some (req 8) ∧
    (waiting (req 9)).wakeBank.turnFor l0 (fun r => r.opc = 9) = some (req 9) ∧
    ((bereft (req 0)).deadReq (req 0).name = true ∧ (bereft (req 0)).wakeBank.turnFor l0 (fun r => r.opc = 0) = some (req 0) ∧
      (bereft (req 0)).transient (req 0).line = false) := by
  refine ⟨by decide +kernel, by simp [State.starts, waiting, up, at_, State.reset, Pwr.reset], ?_⟩
  decide +kernel

/-- The line of the request is in the snoop filter, owned by the requester. -/
def owned (r : Req) : State := { waiting r with home.sf := [(0, { tag := 0, space := false, ov := true, own := 0x010, pdv := 1, hdv := 0x10000 })] }

theorem witness_UncontendedRequests :
    ((waiting (req 4)).nothingWaits ∧ (waiting (req 4)).arr.struck = [] ∧ (waiting (req 4)).oldest l0 = some (req 4) ∧
      (waiting (req 4)).lineFree (req 4) = true ∧ (waiting (req 4)).bankChoice ((waiting (req 4)).bankFor (req 4)) = some (req 4) ∧
      (waiting (req 4)).deadReq (req 4).name = false ∧ (req 4).ext = false ∧ (waiting (req 4)).fromOwner (req 4) = false ∧
      (waiting (req 4)).starts) ∧
    ((waiting (req 5)).oldest l0 = some (req 5) ∧ (waiting (req 5)).lineFree (req 5) = true ∧
      (waiting (req 5)).bankChoice ((waiting (req 5)).bankFor (req 5)) = some (req 5) ∧ (waiting (req 5)).fromOwner (req 5) = false ∧
      (waiting (req 5)).deadReq (req 5).name = false) ∧
    ((owned (req 5)).nothingWaits ∧ (owned (req 5)).oldest l0 = some (req 5) ∧ (owned (req 5)).lineFree (req 5) = true ∧
      (owned (req 5)).bankChoice ((owned (req 5)).bankFor (req 5)) = some (req 5) ∧ (owned (req 5)).fromOwner (req 5) = true ∧
      (owned (req 5)).deadReq (req 5).name = false ∧ (req 5).space = false ∧ (owned (req 5)).leaves l0 = false) ∧
    ((waiting (req 2)).oldest l0 = some (req 2) ∧ (waiting (req 2)).lineFree (req 2) = true ∧ (waiting (req 2)).deadReq (req 2).name = false ∧
      (waiting (req 2)).bankChoice ((waiting (req 2)).bankFor (req 2)) = some (req 2) ∧
      (waiting (req 2)).untracked l0 = true ∧ (waiting (req 2)).find l0 = none ∧ (waiting (req 2)).ring.mpUp = true ∧
      (waiting (req 2)).home.ht = [] ∧ (tabGet (waiting (req 2)).mp.miss (16 * (waiting (req 2)).bankOf l0 + 15)).isNone = true) := by
  decide +kernel

/-- R200: a READ_ONCE of an absent line opens a miss register. -/
theorem test_read_miss : runs (.readOnce l0 .ok) (waiting (req 2)) (fun t => t.mp.miss.length == 1 && t.home.ht.length == 1 && t.home.q == []) = true := by
  decide +kernel

/-- R196: a READ_ONCE of a line held Raw answers COMP_DATA with the line. -/
theorem test_read_hit : runs (.readOnce l0 .ok) { waiting (req 2) with arr.frames := [(0, frame0)] }
    (fun t => (t.port.ready.map fun m => m.flits.length) == [1, 2] && t.home.ht == [] && t.home.q == []) = true := by decide +kernel

/-- A slice that holds an answer for entry 0, and the data flits that go with it. -/
def answered (st : HtSt) (fwd : Bool) (code : Nat) : State :=
  { owned (req 2) with
    home.q := [], home.ht := [(0, asked st fwd)]
    port.rx.rsp := [⟨rspFlit true 0 ⟨false, 0x010, 0⟩ code 0 false 0 0 false 0 0, false⟩]
    port.rx.dat := if code = 0x0E || code = 0x0F then (lineFlits true 0 ⟨true, 0, 0⟩ 0 5 false false 0).map fun f => ⟨f, false⟩ else [] }

/-- Whether the answer at hand is taken under its code. -/
def taken (s : State) (code : BitVec 5) : Bool := (s.rspAt (s.answerReady code)).isSome

theorem witness_SnoopAnswers : taken (answered .snpS false 0x08) 0x08 = true ∧ taken (answered .snpS false 0x09) 0x09 = true ∧
    taken (answered .snpS true 0x0A) 0x0A = true ∧ taken (answered .snpS true 0x0B) 0x0B = true ∧ taken (answered .snpU true 0x0C) 0x0C = true ∧
    taken (answered .snpU true 0x0D) 0x0D = true ∧ taken (answered .snpS false 0x0E) 0x0E = true ∧
    taken (answered .snpU false 0x0F) 0x0F = true ∧ (answered .snpS false 0x08).starts ∧
    (answered .snpS false 0x08).nothingWaits ∧ (answered .snpS false 0x08).deadReq ⟨false, 0x010, 0⟩ = false ∧ tabGet up.home.ht 0 = none ∧
    (asked .snpS false).own ≠ some 0x011 ∧ accepts (asked .snpS false) 0x0C = false := by decide +kernel

/-- R247: SNP_RSP_I to a SNP_SHARED has the entry wait for the eviction. -/
theorem test_snp_rsp_i : runs .snpRspI (answered .snpS false 0x08) (fun t => (tabGet t.home.ht 0).any fun h => h.cross) = true := by decide +kernel

/-- An entry whose sweep of die 3 is pending. -/
def sweeping : State :=
  { up with home.ht := [(0, { entry (.req (req 1)) .snpU with sop := snpInvalidate, sweep := 8 })]
            port.rx.rsp := [⟨rspFlit true 0 ⟨true, 0x300, 0⟩ 0x10 0 false 0 0 false 3 0, false⟩] }

/-- A slice that reclaims for a declared agent. -/
def reclaiming : State := { bereft (req 0) with home.q := [], home.walk := true }

theorem witness_SweepsAndTimers :
    (sweeping.starts ∧
      sweeping.rspAt (fun f => rspType f = 0x10) = some (.ring, rspFlit true 0 ⟨true, 0x300, 0⟩ 0x10 0 false 0 0 false 3 0) ∧
      (tabGet sweeping.home.ht 0).any (fun h => h.st = .snpU && !h.sw && bit (sweeping.relayed h) 3) = true) ∧
    ((tabGet (answered .snpU true 0).home.ht 0).any (fun h => (answered .snpU true 0).resendable h) = true) ∧
    (let s := { up with home.ht := [(0, { asked .snpU true with timer := true })] }
     (tabGet s.home.ht 0).any (fun h => s.timed h) = true) ∧
    (let s := bereft (req 0)
     s.ctl.st = .running ∧ s.home.walk = false ∧ s.walkDue = true ∧ s.opensClosed = true) ∧
    (reclaiming.ctl.st = .running ∧ reclaiming.home.walk = true ∧ reclaiming.opensClosed = true ∧ reclaiming.home.ht = [] ∧
      reclaiming.home.walkSet < 8191 ∧ reclaiming.deadKeys reclaiming.home.walkSet = [] ∧
      (∃ d ∈ reclaiming.home.dead, d.valid = true ∧ d.done = false ∧ d.left > 1)) := by decide +kernel

/-! ### The memory port -/

/-- A read whose command has transferred. -/
def flying : State := { fetching with mp.miss := [(0, { line := l0, st := .issued, ent := 0, waiters := [], reissue := 0, cls := 2, merge := true, ord := 0 })] }

/-- A read and a write command wait for the memory port. -/
def commanded (w : Bool) : State := { up with mp.cmdFifo := [⟨w, 0, 0, 2⟩], mp.hold := [wr0 .fifo], mp.wdFifo := [0] }

theorem witness_MemoryReads :
    (match fetching.pick with
      | .read t _ _ => t == (0 : Byte).toNat
      | _ => false) = true ∧
    ((commanded false).ring.mpUp = true ∧ (commanded false).mp.cmdFifo = [⟨false, 0, 0, 2⟩] ∧ (commanded true).mp.cmdFifo = [⟨true, 0, 0, 2⟩]) ∧
    (flying.starts ∧ flying.rdRdy = true ∧ flying.awaits (0 : Byte).toNat = true ∧ flying.mp.flushRd = [] ∧
      (tabGet flying.mp.miss (0 : Byte).toNat).any (fun m => m.reissue < 4) = true) ∧
    (let s := { flying with pwr.fstate := .acked }
     s.pwr.fstate = .acked ∧ s.rdRdy = true ∧ s.awaits (0 : Byte).toNat = true) ∧
    (let h := { entry (.req (req 2)) .mem with mw := true }
     let s := { up with home.ht := [(0, h)] }
     tabGet s.home.ht (0 : BitVec 9).toNat = some h ∧ s.retryable h = true ∧ s.bankFree (s.bankOf h.line) (s.htRank h).1 (s.htRank h).2 = true) ∧
    (let h := { entry (.req (req 2)) .snpS with data := some (5, false), pw := true }
     let s := { up with home.ht := [(511, h)] }
     tabGet s.home.ht (511 : BitVec 9).toNat = some h ∧ s.resumable h = true) := by decide +kernel

/-- R72: the beat of a read answers its request and frees the register. -/
theorem test_read_data : runs (.memReadData 0 5 false false 0 (beatPar 0 5 false false 0)) flying
    (fun t => t.mp.miss == [] && t.home.ht == [] && (t.port.ready.map fun m => m.flits.length) == [1, 2]) = true := by decide +kernel

/-- A write in the hold whose command, or command and data, have transferred. -/
def written (sent : Bool) (errs : Nat) : State :=
  { up with mp.hold := [{ wr0 .sent with wdSent := sent, errs }], mp.wdFifo := if sent then [] else [0] }

theorem witness_MemoryWrites :
    ((written false 0).ring.mpUp = true ∧ (written false 0).wrOf (0 : BitVec 6).toNat = some { wr0 .sent with wdSent := false, errs := 0 } ∧
      (written false 0).mp.flushWr = [] ∧ (written false 0).mp.flushWd = [] ∧ (written false 0).mp.wdFifo = [0]) ∧
    ((written true 3).wrOf (0 : BitVec 6).toNat = some { wr0 .sent with wdSent := true, errs := 3 }) ∧
    ((written true 4).wrOf (0 : BitVec 6).toNat = some { wr0 .sent with wdSent := true, errs := 4 }) := by decide +kernel

/-- R404: a fifth error completion releases the write and sets MP_WR_FAIL. -/
theorem test_write_fails : runs (.memWriteCompletion 0 true (parity (pack 7 [(0, 1), (1, 0)]))) (written true 4)
    (fun t => t.mp.hold == [] && bit t.chk.err 2) = true := by decide +kernel

/-! ### Arrays, walks and pinning -/

/-- Bank 1 closes its way 2, at a set. -/
def closing (set : Nat) : State := { up with arr.closing := (List.replicate 16 none).set 1 (some ⟨2, set⟩) }

/-- A slice that scrubs. -/
def scrubs : State := { up with cfg.chk.scrubEn := true }

theorem witness_ArraySteps :
    ({ up with arr.rewrite := [(0, 3)] }.arr.rewrite.find? (fun p => keyBank p.1 = (0 : BitVec 4).toNat) = some (0, 3)) ∧
    (up.coreUp = true ∧ up.ring.powcyc.extractLsb' 0 30 = 0 ∧ up.ring.powcyc.extractLsb' 0 20 = 0) ∧
    (scrubs.coreUp = true ∧ scrubs.starts ∧ scrubs.scrubbing = true ∧ scrubs.arr.struck = [] ∧ scrubs.chk.upsets = []) ∧
    (let s := closing 767
     s.coreUp = true ∧ s.starts ∧ nth s.arr.closing (1 : BitVec 4).toNat none = some ⟨2, 767⟩ ∧ (767 < 768) ∧
       s.eligible (frameKey 1 767 2) true = true ∧ s.evictNeeds (frameKey 1 767 2) ≤ s.freeTags.length ∧ tabSorted s.arr.frames = true ∧
       s.arr.struck = []) ∧
    (let s := closing 768
     nth s.arr.closing (1 : BitVec 4).toNat none = some ⟨2, 768⟩ ∧ (∀ w ∈ s.mp.hold, w.cause ≠ .wayClose (1 : BitVec 4).toNat) ∧
       s.arr.waydis.length = 16 ∧ 2 < 16) := by decide +kernel

/-- R417: after the last way and set the position starts again and a pass is counted. -/
theorem test_scrub_pass : runs (.scrubStep []) { scrubs with chk.pos := 12287 } (fun t => t.chk.pos == 0 && t.chk.pass == 1) = true := by
  decide +kernel

/-- A cairn of 4 lines from line 0. -/
def cairn0 : Cairn := { base := 0, len := 4, cls := 2, seq := 0, demoting := false }

/-- A slice whose pinning manager holds a cairn and a request. -/
def pinned (r : Req) : State := { up with pin.cairns := [(0, cairn0)], pin.q := [r], cfg.arr.cairnw := 4, cfg.pin.quota := List.replicate 16 100 }

/-- A PIN or UNPIN of a number of lines from an address. -/
def range (opc : BitVec 5) (addr len : Nat) : Req := { req opc with addr := BitVec.ofNat 52 addr, len := BitVec.ofNat 32 len }

/-- R298: a PIN of a free range enters the cairn table. -/
theorem test_pin : runs .pin (pinned (range 13 512 4)) (fun t => t.pin.cairns.length == 2 && t.pin.walk.isSome && t.pin.seq == 1) = true := by
  decide +kernel

/-- A walk of a PIN or UNPIN over line 0 that is at the frame of way 0 or way 12 of set 0 of each bank. -/
def walk (unpin : Bool) : PinWalk :=
  { unpin, r := range (if unpin then 14 else 13) 0 4, ranges := [(0, 4, 2)], pos := List.replicate 16 (if unpin then 12 else 0), left := 0, row := 7, quota := false }

/-- A walk under way, with line 0 held in way 0, which is a cache way, or in way 12, a cairn way. -/
def walking (unpin : Bool) : State :=
  { up with cfg.arr.cairnw := 4, cfg.pin.quota := List.replicate 16 100, pin.walk := some (walk unpin), arr.frames := [(if unpin then 12 else 0, frame0)] }

/-- Class 2 over its quota, with a cairn that pins line 0 in way 12. -/
def demoting : State :=
  { walking true with pin.walk := none, pin.demote := 4, pin.cairns := [(0, cairn0)], pin.seq := 1, cfg.pin.quota := List.replicate 16 0 }

/-- The demotion step waits for a scan over the lines of the cairn. -/
def heldStep : State :=
  { demoting with knd.scans := [⟨req 10, pack 512 [(56, 4), (116, 3), (128, 1), (192, 0x3F800000)], [], false, [], [], []⟩] }

/-- The dead table in which agent 0x010 stands. -/
def without10 : List Dead :=
  ({ agent := 0x010, np := 0, done := false, valid := true, left := 8192, opens := [] } : Dead) :: List.replicate 15 Dead.reset

/-- A slice in which an INV_RANGE is the next, and one in which it stands at its first line; the same for DIGEST. -/
def ranging (opc : BitVec 5) (len : Nat) : State :=
  if opc = 11 then { up with home.invQ := [range 11 0 len] } else { up with home.digQ := [range 12 0 len] }
def invalidating : State := { up with home.invs := [⟨range 11 0 4, [0, 4, 4, 4], false, false, [], false⟩] }
def digesting (r : Req) : State := { up with home.dig := some ⟨r, [0, 4, 4, 4], 0, false, false, []⟩ }

theorem witness_PinAndUnpin :
    ((pinned (range 13 0 0)).coreUp = true ∧ (pinned (range 13 0 0)).stepHeld = false ∧ (pinned (range 13 0 0)).pinNext 13 = some (range 13 0 0) ∧
      (pinned (range 13 0 0)).deadReq (range 13 0 0).name = false ∧ (range 13 0 0).len = 0) ∧
    ((pinned (range 13 0 4)).pinNext 13 = some (range 13 0 4) ∧ (range 13 0 4).space = false ∧ (range 13 0 4).len ≠ 0 ∧
      ((pinned (range 13 0 4)).pin.cairns.any fun p => p.2.base = (range 13 0 4).line.ln && p.2.len = (range 13 0 4).len && p.2.cls = 2) = true) ∧
    ((pinned (range 13 128 9)).pinNext 13 = some (range 13 128 9) ∧ ((pinned (range 13 128 9)).pin.cairns.any fun p => p.2.overlaps (range 13 128 9)) = true ∧
      ((pinned (range 13 128 9)).pin.cairns.any fun p => p.2.base = (range 13 128 9).line.ln) = false) ∧
    ((pinned (range 13 512 4)).pinNext 13 = some (range 13 512 4) ∧
      ((pinned (range 13 512 4)).pin.cairns.any fun p => p.2.overlaps (range 13 512 4)) = false ∧
      ((pinned (range 13 512 4)).pin.cairns.any fun p => p.2.base = (range 13 512 4).line.ln) = false ∧
      tabFree (pinned (range 13 512 4)).pin.cairns 64 = some 1) ∧
    (let s := { pinned (range 13 512 4) with pin.cairns := (List.range 64).map fun i => (i, cairn0) }
     s.stepHeld = false ∧ s.pinNext 13 = some (range 13 512 4) ∧ (s.pin.cairns.any fun p => p.2.overlaps (range 13 512 4)) = false ∧
       tabFree s.pin.cairns 64 = none) ∧
    ((pinned (range 14 512 4)).coreUp = true ∧ (pinned (range 14 512 4)).stepHeld = false ∧
      (pinned (range 14 512 4)).pinNext 14 = some (range 14 512 4) ∧ (pinned (range 14 512 4)).deadReq (range 14 512 4).name = false ∧
      (pinned (range 14 512 4)).unpinHeld (range 14 512 4) = false ∧ (pinned (range 14 512 4)).released300 (range 14 512 4) = []) ∧
    ((pinned (range 14 0 4)).pinNext 14 = some (range 14 0 4) ∧ (pinned (range 14 0 4)).unpinHeld (range 14 0 4) = false ∧
      (pinned (range 14 0 4)).released300 (range 14 0 4) ≠ [] ∧ tabSorted (pinned (range 14 0 4)).pin.cairns = true ∧
      (pinned (range 14 0 4)).deadReq (range 14 0 4).name = false) ∧
    heldStep.stepHeld = true := by decide +kernel

theorem witness_WalksAndRanges :
    (let s := { walking false with arr.frames := [] }
     s.starts ∧ s.pin.walk = some (walk false) ∧ nth (walk false).pos (0 : BitVec 4).toNat 12288 < 12288 ∧
       (∃ p ∈ upd (walk false).pos 0 (· + 1), p < 12288) ∧ s.arr.struck = [] ∧ s.cfg.chk.level.toNat < 2 ∧ tabSorted s.arr.frames = true ∧
       s.walkLines (walk false) 0 = []) ∧
    ((walking false).walkLines (walk false) 0 = [(0, l0)] ∧ (walking false).frame ((walk false).next 0) = some frame0 ∧
      (walking false).movable ((walk false).next 0) l0 = true ∧ (walk false).unpin = false ∧
      ¬((walking false).use 2 ≥ (walking false).quota 2) ∧ (walking false).freeFrame .cairn 0 (setOf l0) = some 12) ∧
    (let s := { walking false with cfg.pin.quota := List.replicate 16 0 }
     s.walkLines (walk false) 0 = [(0, l0)] ∧ s.movable ((walk false).next 0) l0 = true ∧ s.use 2 ≥ s.quota 2) ∧
    ((walking true).walkLines (walk true) 0 = [(0, l0)] ∧ (walking true).leavable ((walk true).next 0) l0 = true ∧ (walk true).unpin = true ∧
      (walking true).evictNeeds ((walk true).next 0) ≤ (walking true).freeTags.length ∧
      (walking true).evictWrites ((walk true).next 0) 0 frame0 = false) ∧
    (let f := { frame0 with slots := [{ v := true, enc := 0, lidx := 0, mt := { Meta.clear with d := true } }] }
     let s := { walking true with arr.frames := [(12, f)] }
     s.frame ((walk true).next 0) = some f ∧ s.walkLines (walk true) 0 = [(0, l0)] ∧ s.evictWrites ((walk true).next 0) 0 f = true ∧
       s.evictNeeds ((walk true).next 0) ≤ s.freeTags.length) ∧
    (demoting.ctl.st = .running ∧ bit demoting.pin.demote (2 : BitVec 4).toNat = true ∧ demoting.demoted 2 = false ∧
      demoting.pinning 2 = [(0, cairn0)] ∧ demoting.cairnFrame cairn0 = some 12 ∧ demoting.scanHolds cairn0 = false ∧
      demoting.evictNeeds 12 ≤ demoting.freeTags.length ∧ (∀ x ∈ demoting.linesAt 12 cairn0.covers, demoting.movable 12 x.2 = true) ∧
      tabSorted demoting.arr.frames = true ∧ demoting.arr.struck = [] ∧ demoting.starts) ∧
    (let s := { demoting with arr.frames := [] }
     s.ctl.st = .running ∧ bit s.pin.demote (2 : BitVec 4).toNat = true ∧ s.demoted 2 = true) ∧
    ((ranging 11 4).coreUp = true ∧ (ranging 11 4).invsGoOn ∧ (ranging 11 4).home.invQ = [range 11 0 4] ∧ (range 11 0 4).opc = 11 ∧
      (ranging 11 4).deadReq (range 11 0 4).name = false ∧ (∃ p ∈ (ranging 11 4).rangeStarts (range 11 0 4), p < (range 11 0 4).len.toNat) ∧
      ¬(∃ p ∈ (ranging 11 0).rangeStarts (range 11 0 0), p < (range 11 0 0).len.toNat)) ∧
    ((ranging 12 4).home.digQ = [range 12 0 4] ∧ (ranging 12 4).home.dig = none ∧ (range 12 0 4).opc = 12 ∧
      (∃ p ∈ (ranging 12 4).rangeStarts (range 12 0 4), p < (range 12 0 4).len.toNat) ∧
      ¬(∃ p ∈ (ranging 12 0).rangeStarts (range 12 0 0), p < (range 12 0 0).len.toNat)) ∧
    ({ ranging 11 4 with home.dead := without10 }.deadReq (range 11 0 4).name = true ∧
      { ranging 12 4 with home.dead := without10 }.deadReq (range 12 0 4).name = true) := by
  refine ⟨by decide +kernel, ⟨by decide +kernel, rfl, by decide +kernel⟩, by decide +kernel, by decide +kernel, ⟨rfl, by decide +kernel⟩,
    by decide +kernel, by decide +kernel, by decide +kernel, by decide +kernel, by decide +kernel⟩

/-- The same statement's clauses about the lines of the ranges. -/
theorem witness_RangeLines :
    (let j : InvJob := ⟨range 11 0 4, [0, 4, 4, 4], false, false, [], false⟩
     let s := invalidating
     s.home.invs[0]? = some j ∧ nth j.next (0 : BitVec 2).toNat j.r.len.toNat = 0 ∧ 0 < j.r.len.toNat ∧ s.freeLine (j.r.lineAt 0) = true ∧
       s.oldest (j.r.lineAt 0) = none ∧ s.untracked (j.r.lineAt 0) = true ∧ s.invsGoOn ∧ (∀ q ∈ s.home.invs, q.r = j.r → q = j) ∧
       (∃ p ∈ s.rangeOn j.r 0 0 j.next, p < j.r.len.toNat)) ∧
    (let s := { invalidating with home.sf := (owned (req 1)).home.sf }
     s.freeLine l0 = true ∧ s.oldest l0 = none ∧ s.untracked l0 = false ∧ (∃ x, s.sfFind l0 = some (0, x) ∧ x.pdv ≠ 0) ∧
       s.invOpen (range 11 0 4) < 16 ∧ s.home.ht.length < 512 ∧ tabFree s.home.ht 512 = some 0 ∧ s.nothingWaits) ∧
    (let r := range 12 0 4
     let s := { digesting r with arr.frames := [(0, frame0)] }
     s.starts ∧ s.arr.struck = [] ∧ s.cfg.chk.level.toNat < 2 ∧ s.freeLine (r.lineAt 0) = true ∧ s.home.ht.length < 512 ∧
       s.bankFree (s.bankOf (r.lineAt 0)) r.cls r.since = true ∧ s.ownerOf (r.lineAt 0) = none ∧
       (∃ p ∈ s.rangeOn r 0 0 [0, 4, 4, 4], p < r.len.toNat) ∧ s.find (r.lineAt 0) = some (0, 0) ∧ s.frame 0 = some frame0) ∧
    (let r := { range 12 0 4 with space := true }
     let s := { digesting r with cfg.pin.windows := [⟨0, 0, 2⟩] }
     s.freeLine (r.lineAt 0) = true ∧ s.find (r.lineAt 0) = none ∧ (r.lineAt 0).space = true ∧ s.outside (r.lineAt 0) = false ∧
       (digesting r).find (r.lineAt 0) = none ∧ (digesting r).outside (r.lineAt 0) = true ∧
       (∃ p ∈ (digesting r).rangeOn r 0 0 [0, 4, 4, 4], p < r.len.toNat)) ∧
    (let r := range 12 0 4
     let s := digesting r
     s.find (r.lineAt 0) = none ∧ (r.lineAt 0).space = false ∧ s.ring.mpUp = true ∧ tabFree s.home.ht 512 = some 0 ∧
       (tabGet s.mp.miss (16 * s.bankOf (r.lineAt 0) + 15)).isNone = true) := by
  refine ⟨by decide +kernel, ⟨by decide +kernel, by decide +kernel, by decide +kernel, ⟨_, rfl, by decide +kernel⟩, by decide +kernel,
    by decide +kernel, by decide +kernel⟩, ⟨?_, ?_, ?_, ?_, ?_, ?_, ?_, ?_, ?_, rfl⟩, by decide +kernel, by decide +kernel⟩ <;> decide +kernel

/-- R299: the pin walk moves line 0 from its cache way into cairn way 12. -/
theorem test_pin_walk : runs (.pinWalkVisit 0) (walking false) (fun t => (t.arr.frames.map fun p => p.1) == [12]) = true := by decide +kernel

/-- An epoch switch, its walks under way. -/
def switching : State := { up with ctl.st := .quiesced, ctl.busy := true, pin.epSf := 0, pin.epTag := List.replicate 16 0 }

/-- A move that waits for its completion, after some sends, with the completion of a code at hand. -/
def moving (sends : Nat) (wait : Bool) (sp : Bool) (code : Nat) : State :=
  { switching with home.ht := [(0, { (Ht.blank ⟨sp, 0⟩ (.move sends wait (req 6)) .move) with data := some (5, false) })]
                   port.rx.rsp := [⟨rspFlit true 0 ⟨true, 0, 0⟩ 0 code false 0 0 false 0 0, false⟩] }

theorem witness_EpochWalksAndMoves :
    (switching.starts ∧ switching.ctl.busy = true ∧ switching.pin.epSf < 8192 ∧ switching.sfLeaving switching.pin.epSf = [] ∧
      switching.recalls ≤ 16 ∧ switching.home.ht.length ≤ 512 ∧ switching.walkRoom (switching.sfLeaving switching.pin.epSf) = true) ∧
    (nth switching.pin.epTag (0 : BitVec 4).toNat 12288 < 12288 ∧ switching.openCount (fun h => h.st = .move) < 256 ∧
      (switching.linesAt 0 fun l => switching.changesHome l && switching.oldBank l = 0) = [] ∧ switching.walkRoom [] = true) ∧
    ((tabGet (moving 0 true false 0).home.ht (0 : BitVec 9).toNat).any (fun h => !h.timer && h.why == .move 0 true (req 6)) = true ∧
      (moving 0 true false 0).roomFor false = true ∧ (moving 0 true false 0).starts) ∧
    ((tabGet { moving 0 true false 0 with home.ht := [(0, { (Ht.blank l0 (.move 0 true (req 6)) .move) with timer := true })] }.home.ht
      (0 : BitVec 9).toNat).any (fun h => h.timer && h.st = .move) = true) ∧
    (∀ code ∈ [0, 1, 2, 7], ∀ sends ∈ [1, 3, 4], ((moving sends false true code).rspAt (moving sends false true code).moveComp).any
      (fun p => (rspCode p.2).toNat == code && (tabGet (moving sends false true code).home.ht (flitName p.2).txn.toNat).isSome) = true) := by
  decide +kernel

/-- R317: ERR_HOME loses a buffer-space line. -/
theorem test_move_lost : runs .moveComplete (moving 1 false true 1) (fun t => t.pin.lostN == 1 && t.home.ht == []) = true := by decide +kernel

/-! ### Knead and scans -/

/-- A line-buffer entry of line 0. -/
def lb0 (kn bare : Bool) : Lb :=
  { line := l0, frame := none, key := 0, slot := 0, data := 5, mt := Meta.clear, kn, bare, vic := none, sel := false }

/-- An ATOMIC, operation 0 on I32, at its turn in the knead engine. -/
def kneading : State :=
  { up with home.ht := [(0, entry (.req (req 8)) .knead)], knd.lb := [(0, lb0 false false)], arr.frames := [(0, frame0)]
            cfg.knd.lanes := [0xFF, 0xFF, 0xFF, 0xFF] }

/-- A line-buffer entry that knead operations have written, in QUIESCING. -/
def kneaded : State := { at_ .quiescing with knd.lb := [(0, lb0 true false)], arr.frames := [(0, frame0)] }

/-- The descriptor of a scan of a dot product over one row of 64 FP32 elements at address 512. -/
def desc0 : Body := pack 512 [(0, 512), (56, 4), (116, 3), (128, 1), (192, 0x3F800000)]

/-- A SCAN with that descriptor; its query is zero. -/
def scan0 : Req := { req 10 with plen := 5 }

/-- A slice with a SCAN in its queue; `len` lines from line 4 on are pinned. -/
def scanAt (len : Nat) : State :=
  { up with home.scanQ := [scan0], cfg.knd.lanes := [0xFF, 0xFF, 0xFF, 0xFF]
            pin.cairns := [(0, { cairn0 with base := 4, len := BitVec.ofNat 32 len })]
            port.rx.pay := [⟨scan0.name, ⟨0, desc0, false, 3, false⟩ :: (List.range 4).map fun i => ⟨BitVec.ofNat 4 (i + 1), 0, false, 3, false⟩⟩] }

/-- The scan accepted, its column 0 with its row ahead (`next` 0) or behind it; the request reached the slice at 5. -/
def job (started : Bool) (next : Nat) : ScanJob :=
  { r := { scan0 with since := 5 }, desc := desc0, query := [0, 0, 0, 0], pois := false, tags := [], lost := []
    cols := { Col.fresh next 0 with started } :: List.replicate 3 (Col.fresh 1 0) }

/-- The lines of the scan's row. -/
def l4 : LineId := ⟨false, 4⟩
def l5 : LineId := ⟨false, 5⟩

/-- The frames that hold them, in ways 0 and 1 of their set. -/
def rowFrames : List (Nat × Frame) :=
  [(frameKey 0 (setOf l4) 0, (Frame.fresh l4 .raw false).write 0 0 0 Meta.clear),
   (frameKey 0 (setOf l4) 1, (Frame.fresh l5 .raw false).write 0 1 0 Meta.clear)]

/-- A slice whose column 0 is at the row, its lines held. -/
def scoring : State := { scanAt 4 with home.scanQ := [], knd.scans := [job true 0], arr.frames := rowFrames }

theorem witness_KneadAndScans :
    (kneading.starts ∧ tabGet kneading.home.ht (0 : BitVec 9).toNat = some (entry (.req (req 8)) .knead) ∧
      (entry (.req (req 8)) .knead).st = .knead ∧ (entry (.req (req 8)) .knead).lbw = false ∧ kneading.commitWrites (req 8) = false ∧
      kneading.lbFind l0 = some (0, lb0 false false) ∧ tabSorted kneading.knd.lb = true ∧ (req 8).op ≤ 10 ∧ (req 8).sr = false ∧
      (req 8).opc = 8 ∧ (req 8).acq = false ∧ (entry (.req (req 8)) .knead).tags = [] ∧ (entry (.req (req 8)) .knead).passed = false ∧
      (entry (.req (req 8)) .knead).rclm = false ∧ kneading.nothingWaits ∧ kneading.home.walk = false ∧ kneading.lockOpen l0 = true ∧
      kneading.chk.upsets = [] ∧ (entry (.req (req 8)) .knead).wbad = false) ∧
    (kneaded.starts ∧ tabGet kneaded.knd.lb (0 : BitVec 6).toNat = some (lb0 true false) ∧ kneaded.lbDue (lb0 true false) = true ∧
      kneaded.lbFree (lb0 true false) = true ∧ kneaded.find l0 = some (0, 0) ∧ frame0.fmt.admits (fitOf (lb0 true false).data) = true ∧ frame0.fmt ≠ .invalid ∧ kneaded.unlocked (kneaded.bankOf l0) (loafOf l0) = true ∧
      kneaded.cfg.compat = false ∧ tabSorted kneaded.knd.lb = true ∧ kneaded.chk.upsets = [] ∧ kneaded.frame 0 = some frame0) ∧
    ((scanAt 4).coreUp = true ∧ (scanAt 4).home.scanQ = [scan0] ∧ (scanAt 4).knd.scans.length < 8 ∧ (scanAt 4).deadReq scan0.name = false ∧
      (scanAt 4).scanCheck scan0 (scanDesc ((scanAt 4).payload scan0)) = none ∧
      (scanAt 0).scanCheck scan0 (scanDesc ((scanAt 0).payload scan0)) = some 5 ∧
      { scanAt 4 with home.dead := without10 }.deadReq scan0.name = true) ∧
    (let s := { scanAt 4 with knd.scans := [job false 0] }
     s.nextScan (0 : BitVec 2).toNat = some (0, job false 0) ∧ (∀ q ∈ s.knd.scans, q.on (0 : BitVec 2).toNat = false)) ∧
    (scoring.starts ∧ scoring.scanOn (0 : BitVec 2).toNat = some (0, job true 0) ∧
      scoring.firstNeed (job true 0) 0 = none ∧ scoring.rowServed (job true 0) 0 = true ∧ scoring.cfg.chk.level.toNat < 2 ∧
      descFused (job true 0).desc = false ∧ (job true 0).cols.length = 4 ∧
      (scoring.readRow (job true 0) (descKey desc0 0) (rowBytes (descKfmt desc0) (descDim desc0)) .ok).2.isSome = true) ∧
    (let s := { scoring with ring.powcyc := 5, home.q := [{ req 2 with addr := 768 }] }
     s.firstNeed (job true 0) 0 = none ∧ s.rowServed (job true 0) 0 = false) ∧
    (let s := { scoring with home.ht := [(0, { entry (.req (req 2)) .mem with line := l4 })] }
     s.firstNeed (job true 0) 0 = some (l4, .busy)) ∧
    (let s := { scoring with knd.lb := [(0, { lb0 true false with line := l4 })] }
     s.firstNeed (job true 0) 0 = some (l4, .kn)) ∧
    (let s := { scanAt 4 with knd.scans := [job true 1] }
     (((List.range s.knd.scans.length).zip s.knd.scans).find? fun p => (List.range 4).all fun n => !p.2.left n) = some (0, job true 1) ∧
       s.heldTags (job true 1).tags = []) := by
  refine ⟨by decide +kernel, ⟨?_, ?_, ?_, ?_, ?_, ?_, ?_, ?_, ?_, ?_, ?_, rfl⟩, by decide +kernel, by decide +kernel, by decide +kernel, by decide +kernel, by decide +kernel,
    by decide +kernel, by decide +kernel⟩ <;> decide +kernel

/-- R358: a SCAN of rows that are not pinned answers ERR_PIN. -/
theorem test_scan_pin : runs .scan (scanAt 0) (fun t => t.knd.scans == [] &&
    (t.port.ready.map fun m => m.flits.map fun f => rspCode f) == [[5]]) = true := by decide +kernel

/-- R376: a free column takes the scan. -/
theorem test_scan_start : runs (.scanColumnStart 0) { scanAt 4 with knd.scans := [job false 0] }
    (fun t => t.knd.scans == [job true 0]) = true := by decide +kernel

/-! ### Landing -/

/-- A landing group 0 in a state, with a completion of transaction `base` at hand. -/
def landing (e : Land) (base rtype code : Nat) : State :=
  { up with land.tab := [(0, e)], port.rx.rsp := [⟨rspFlit true 0 ⟨true, 0, BitVec.ofNat 12 base⟩ rtype code false 0 0 false 0 0, false⟩] }

/-- A final write that is held. -/
def held0 : Held := ⟨{ req 4 with land := true, lfin := true, lcnt := 1 }, 5, false⟩

/-- The states of group 0 that the clauses speak of. -/
def unsent : Land := { Land.reset with u := 5, flush := true }
def tally (t : Tally) : Land := { Land.reset with u := 5, again := true, tally := t, held := some held0 }

theorem witness_LandingTallies :
    ((landing unsent 0xE00 0 0).coreUp = true ∧ (landing unsent 0xE00 0 0).tallyRuns = true ∧
      (landing unsent 0xE00 0 0).landAt (0 : BitVec 6).toNat = unsent ∧ unsent.flush = true ∧ unsent.u ≠ 0 ∧ unsent.again = false ∧
      unsent.add = none ∧ ((landing unsent 0xE00 0 0).setLand 0 { unsent with flush := false }).roomFor false = true) ∧
    (let s := { landing unsent 0xE00 0 0 with ctl.st := .draining }
     s.coreUp = true ∧ s.tallyRuns = false ∧ s.landAt (0 : BitVec 6).toNat = unsent) ∧
    (((landing { unsent with u := 0, add := some 5 } 0xE00 0 6).rspAt ((landing unsent 0 0 0).tallyComp 0xE00)).any
      (fun p => (flitName p.2).txn.toNat == 0xE00 + (0 : BitVec 6).toNat && rspCode p.2 != 0) = true) ∧
    (((landing (tally .reading) 0xE40 0 6).rspAt (landing (tally .reading) 0xE40 0 6).isRead).isSome = true) ∧
    (((landing (tally .subbing) 0xE40 0 6).rspAt fun f => (landing (tally .subbing) 0xE40 0 6).tallyComp 0xE40 f && rspType f != 1 &&
      !(landing (tally .subbing) 0xE40 0 6).isRead f).isSome = true) ∧
    ((landing (tally .gap) 0 0 0).tallyRuns = true ∧ ((landing (tally .gap) 0 0 0).landAt (0 : BitVec 6).toNat).tally = .gap ∧
      (landing (tally .gap) 0 0 0).roomFor true = true) ∧
    (((landing (tally .idle) 0 0 0).landAt (0 : BitVec 6).toNat) = tally .idle ∧ (tally .idle).again = true ∧ (tally .idle).u ≠ 0 ∧
      (tally .idle).add = none ∧ (landing (tally .idle) 0 0 0).roomFor false = true) ∧
    (((landing (tally .subGap) 0 0 0).landAt (0 : BitVec 6).toNat).tally = .subGap) ∧
    (tabSorted (landing (tally .gap) 0 0 0).land.tab = true ∧ ((landing (tally .gap) 0 0 0).landAt (0 : BitVec 6).toNat).held = some held0) := by
  decide +kernel

/-- R285: a tally that times out answers ERR_LANDING and frees its group. -/
theorem test_tally_timeout : runs (.tallyTimeout 0) (landing { tally .gap with u := 0, again := false } 0 0 0)
    (fun t => t.land.tab == [] && (t.port.ready.map fun m => m.flits.map fun f => rspCode f) == [[8]]) = true := by decide +kernel

/-- R282: an add whose completion has a code other than OK is counted again. -/
theorem test_add_fails : runs .tallyAddComplete (landing { unsent with u := 1, flush := false, add := some 5 } 0xE00 0 6)
    (fun t => (t.landAt 0).u == 6 && (t.landAt 0).again) = true := by decide +kernel

/-! ### QoS and patterns -/

theorem witness_QosSteps :
    (threshold 64 2 * 16 ≤ 64 * 16 ∧ 0 < 64 ∧ (1 ≤ 2 ∧ 2 ≤ 4)) ∧ up.coreUp = true ∧ up.qos.avg.length = 16 ∧
    (let s := { up with cfg.qos.rlEn := true }
     s.cfg.qos.rlEn = true ∧ bit s.qos.idle (0 : BitVec 2).toNat = false) ∧
    (let s := { up with qos.ramp := [some 1, none, none, none] }
     nth s.qos.ramp (0 : BitVec 2).toNat none = some 1) := by decide +kernel

/-- R391: the ramp of a bank group ends after its last level. -/
theorem test_ramp : runs (.rampLevelStep 0) { up with qos.ramp := [some 2, none, none, none] }
    (fun t => t.qos.ramp == [none, none, none, none]) = true := by decide +kernel

/-- Slot 0: ADD of 32-bit integers over generated lines, for lane 0, with an expected crust. -/
def patterned (due : Option Nat) (void : Bool) (w0 w2 : Word) : State :=
  { up with cfg.chk.patEn := true, cfg.knd.lanes := [0xFF, 0xFF, 0xFF, 0xFF], chk.pat := [(0, w0), (1, 0x00010001), (2, w2)], chk.patDue := due
            chk.patVoid := void }

/-- Word 0 of that slot: valid, on lane 0, OP 1, KFMT 2. -/
def patWord0 : Word := pack 32 [(0, 1), (3, 1), (16, 1), (24, 2)]

theorem witness_PatternWords : up.coreUp = true ∧ tabSorted up.chk.pat = true ∧ (patterned (some 0) false patWord0 0).chk.patDue = some 0 ∧
    tabSorted (patterned (some 0) false patWord0 0).chk.pat = true := by decide +kernel

theorem witness_PatternRuns :
    ((patterned none false patWord0 0).patRuns = true ∧ (patterned none false patWord0 0).patNextPair = some 0 ∧
      (patterned none false patWord0 0).chk.patDue = none) ∧
    ((patterned (some 0) true patWord0 0).starts ∧ (patterned (some 0) true patWord0 0).chk.patDue = some 0 ∧
      (patterned (some 0) true patWord0 0).chk.patVoid = true) ∧
    ((patterned (some 0) false 9 0).chk.patVoid = false ∧ (patterned (some 0) false 9 0).patOk (0 / 4) (0 % 4) = false) ∧
    ((patterned (some 0) false patWord0 0).chk.patVoid = false ∧ (patterned (some 0) false patWord0 0).patOk (0 / 4) (0 % 4) = true) := by
  decide +kernel

/-- The slot's target line after the operation does not depend on word 2. -/
theorem patterned_result (w2 : Word) : (patterned (some 0) false patWord0 w2).patResult 0 = (patterned (some 0) false patWord0 0).patResult 0 := by
  have h0 : ∀ w, (patterned (some 0) false patWord0 w).patWord 0 0 = patWord0 := fun _ => rfl
  have h1 : ∀ w, (patterned (some 0) false patWord0 w).patWord 0 1 = 0x00010001 := fun _ => rfl
  have hr : ∀ w, (patterned (some 0) false patWord0 w).patReq 0 = (patterned (some 0) false patWord0 0).patReq 0 := fun _ => rfl
  have hk : ∀ w, (patterned (some 0) false patWord0 w).patKind 0 = (patterned (some 0) false patWord0 0).patKind 0 := fun _ => rfl
  have h5 : ∀ w, (patterned (some 0) false patWord0 w).patWord 0 5 = (patterned (some 0) false patWord0 0).patWord 0 5 := fun _ => rfl
  have hs : ∀ w, (patterned (some 0) false patWord0 w).chk.patst = (patterned (some 0) false patWord0 0).chk.patst := fun _ => rfl
  have hl : ∀ w b lo, bit patWord0 b = false → (patterned (some 0) false patWord0 w).patLine 0 b lo = genLine (fld (0x00010001 : Word) lo 16) := by
    intro w b lo hb
    simp [State.patLine, h0, h1, hb]
  unfold State.patResult
  rw [hr w2, hk w2, hl w2 7 0 (by decide), hl w2 8 16 (by decide), hl 0 7 0 (by decide), hl 0 8 16 (by decide), h5 w2, hs w2]

/-- A run passes where word 2 is the crust of its result; with a wrong residue it fails. -/
theorem witness_PatternPasses : ∃ w2, ((patterned (some 0) false patWord0 w2).patPasses (0 / 4) && !false) = true ∧
    ((patterned (some 0) false patWord0 w2).patPasses (0 / 4) && !true) = false := by
  refine ⟨crust ((patterned (some 0) false patWord0 0).patReq 0).line ((patterned (some 0) false patWord0 0).patResult 0).1, ?_, by simp⟩
  have hv : ((patterned (some 0) false patWord0 0).patResult 0).2 = none := by rfl
  have h2 : ∀ w, (patterned (some 0) false patWord0 w).patWord 0 2 = w := fun _ => rfl
  have hr : ∀ w, (patterned (some 0) false patWord0 w).patReq 0 = (patterned (some 0) false patWord0 0).patReq 0 := fun _ => rfl
  simp only [State.patPasses, Nat.zero_div, patterned_result, hv, h2, hr, Option.map_none, Option.getD_none, beq_self_eq_true, Bool.not_false, Bool.and_self]

/-! ### The saddle link -/

/-- A slice whose link is in a state, all lanes usable. -/
def linked (st : LkSt) : State :=
  { up with lnk.st := st, lnk.usable := 0xFF, lnk.good := 0xFF, lnk.laneEn := 0xFF, lnk.cfg.cap := 0x3C, lnk.keep := 0xFF
            lnk.credit := [128, 64, 128, 256] }

theorem witness_SaddleTraining :
    ((linked .detect).lnk.lost = false ∧ (linked .detect).ctl.st ≠ .linking ∧ (linked .ts1).ring.spRst = false) ∧
    ((linked .lanechk).lnk.drv = 0 ∧ { linked .lanechk with lnk.drv := 1 }.lnk.drv ≠ 0) ∧
    ((fld (linked .capex).lnk.cfg.cap 2 4 &&& fld (0 : Word) 2 4 : BitVec 4) = 0 ∧
      (fld (linked .capex).lnk.cfg.cap 2 4 &&& fld (0x3C : Word) 2 4 : BitVec 4) ≠ 0 ∧ (linked .capex).lnk.usable &&& (0 : Byte) = 0) ∧
    (let s := { linked .rateset with lnk.phyReq := true, lnk.cands := [1] }
     s.lnk.phyReq = true ∧ s.ring.spRst = false ∧ s.lnk.st = .rateset ∧ s.lnk.want = none ∧ s.lnk.cands ≠ [] ∧ s.training = true ∧
       { s with lnk.want := some (1, true) }.lnk.want = some (1, true)) ∧
    (let s := { linked .prbs with lnk.cands := [1] }
     s.lnk.cands = [1] ∧ s.lnk.best = none ∧
       s.lnk.usable &&& prbsMask (s.fecAt (1 : BitVec 2).toNat) (List.replicate 8 5000) &&& (0xFF : Byte) = 0) ∧
    (let s := { linked .align with lnk.aligned := 8, lnk.best := some Mode.reset }
     s.lnk.aligned ≥ 8 ∧ s.lnk.best = some Mode.reset) := by decide +kernel

/-- R93: no training sequence is recognised: LNK_ERRC 0x01 and the link is down. -/
theorem test_no_partner : runs .noPartnerTimeout (linked .ts1) (fun t => t.lnk.st == .down && t.lnk.errc == 1) = true := by decide +kernel

theorem witness_SaddleService :
    ((linked .up).ctl.st ≠ .off ∧ (linked .up).lnk.st = .up ∧ bit (linked .up).lnk.good (0 : BitVec 3).toNat = true ∧
      { linked .up with lnk.mode.fec := true }.lnk.mode.fec = true) ∧
    (linked .retrain).lnk.st = .retrain ∧
    ((linked .up).lnk.since < 31 ∧ (linked .up).lnk.resend = [] ∧ (linked .up).lnk.tx = [] ∧ (linked .up).lnk.sel = [] ∧
      (linked .up).lnk.owed = [0, 0, 0, 0]) ∧
    ({ linked .up with lnk.since := 31 }.lnk.since = 31 ∧ (∀ x ∈ (linked .up).lnk.sel ++ (linked .up).lnk.tx, x.bad = 0)) ∧
    ((linked .up).ring.spRst = false ∧ bit (0 : BitVec 40) 1 = false ∧ ((true = true) ∨ fld (0 : BitVec 40) 24 16 ≠ frameCrc (fld (0 : BitVec 40) 0 24) [])) := by
  refine ⟨by decide +kernel, by decide +kernel, by decide +kernel, by decide +kernel, by decide +kernel, by decide +kernel, .inl rfl⟩

/-- R102, R103: a lane that passes the symbol threshold in service starts a retrain without it, with fault code 0b110. -/
theorem test_lane_lost : runs (.saddleSymbolThreshold 3) { linked .up with lnk.mode := { Mode.reset with fec := true, lanes := 0xFF, width := 3 } }
    (fun t => t.lnk.st == .retrain && !bit t.lnk.keep 3 && !bit t.lnk.laneEn 3 && (fld t.lnk.lflt 9 3 : BitVec 3) == 6) = true := by
  decide +kernel

/-- Lines 0 and 1 are of one loaf. -/
theorem witness_SetsAndCrusts : (0 : Addr).extractLsb' 9 43 = (128 : Addr).extractLsb' 9 43 := by decide

/-! ### Registers, control plane and resets: the clauses about what is less common -/

theorem witness_ReportFallsDue : metered.pending = [] ∧ metered.reportDue = true ∧ metered.ctl.st ≠ .off := by decide +kernel

/-- A report that has begun in the present cycle. -/
theorem witness_ReportBegun : (let s := { metered with pwr.report := [0], pwr.rstart := 0 }
    s.coreUp = true ∧ s.pwr.report ≠ [] ∧ s.pwr.rstart = s.ring.powcyc) := by decide +kernel

theorem witness_SettingsWritten : up.performs true 0x5A50 = true ∧ (0x5A50, 0xFF) ∈ rwMasks ∧ (0x0100, 1) ∈ rwMasks ∧ up.pmc.uperm.length = 5 ∧
    (up.performs true 0x0104 = true ∧ up.landHeld = 0 ∧ up.landUnsent = false) ∧
    (let s := { up with land.tab := [(0, { Land.reset with u := 5 })] }
     s.performs true 0x010C = true ∧ s.landUnsent = true) ∧ up.performs true 0x1040 = true := by decide +kernel

theorem witness_RefusedReads : up.coreUp = true ∧ 0x0010 % 4 = 0 ∧ up.regRead 0x0010 = none ∧ up.regRead 0x0404 = some 0 ∧
    (up.regRead 0x0004).isSome = true := by decide +kernel

/-- A slice in a state in which a changed LINK section waits to take effect: the port enabled or not, held down or not. -/
def relinked (st : SlState) (enable hold : Bool) : State :=
  { at_ st with ctl := { (at_ st).ctl with linkChanged := true }, cfg := { (at_ st).cfg with link := { LinkCfg.reset with enable } }
                ring := { ringOn with tieEdge := true }, lnk := { Lnk.reset with hold } }

theorem witness_LinkSectionTaken : (∀ e ∈ [true, false], ∀ h ∈ [true, false], (relinked .quiesced e h).ctl.linkChanged = true ∧
      (relinked .quiesced e h).ctl.busy = false ∧ (relinked .drained e h).ctl.linkChanged = true ∧ (relinked .drained e h).coreUp = true ∧
      (relinked .drained e h).ring.tstMode = false ∧ (relinked .drained e h).cfg.link.enable = e ∧ (relinked .drained e h).lnk.hold = h) ∧
    (relinked .drained true false).ring.spRst = false ∧ (relinked .drained true false).ring.pckRun = true := by decide +kernel

/-- INITIALIZING after a load by which the saddle port is enabled, its bond test done before: the link down, or up as it was. -/
def relinking (hold : Bool) (st : LkSt) : State :=
  { relinked .initializing true hold with
    ring := { ringOn with tieEdge := true, bondDone := true, bondFail := 2 }
    lnk := { Lnk.reset with hold, st, cfg := { LinkCfg.reset with enable := st = .up } } }

theorem witness_LinkingBegins : (∀ h ∈ [true, false], (relinking h .down).ctl.st = .initializing ∧ (relinking h .down).ring.bondDone = true ∧
      (relinking h .down).cfg.arr.insvc &&& ~~~(relinking h .down).ring.bondFail ≠ 0 ∧ (relinking h .down).ctl.initResume = false ∧
      (relinking h .down).cfg.link.enable = true ∧ (relinking h .down).linkUp = false ∧ (relinking h .down).lnk.hold = h ∧
      (relinking h .down).ring.spRst = false ∧ (relinking h .down).ring.pckRun = true) ∧
    ((relinking false .up).linkUp = true ∧ (relinking false .up).lnk.cfg = (relinking false .up).cfg.link) ∧
    (let s := { relinking false .down with ctl := { (relinking false .down).ctl with initResume := true } }
     s.ring.bondDone = true ∧ s.ctl.initResume = true) := by decide +kernel

/-- DRAINED_REACHED with a dirty line left. -/
theorem witness_DrainGoesOn : (let s := { at_ .draining with
      arr.frames := [(0, { frame0 with slots := [{ v := true, enc := 0, lidx := 0, mt := { Meta.clear with d := true } }] })] }
    s.ctl.st = .draining ∧ s.drainable = true) := by decide +kernel

/-- A declaration while an entry is open that does not wait on the agent. -/
theorem witness_DeclaredBesideAnEntry : (let s := { up with home.ht := [(0, entry (.req (req 2)) .mem)] }
    s.declares = true ∧ s.isDead 7 = false ∧ s.deadFree = some 0 ∧ (∀ e ∈ s.home.ht, s.waitsOn e.2 7 = false)) := by decide +kernel

/-- A write whose command has transferred and whose data has not. -/
theorem witness_DataStillOwed : (let s := { up with mp.hold := [wr0 .sent], mp.wdFifo := [0] }
    s.ctl.st ≠ .off ∧ s.mp.wdFifo = [0] ∧ s.wrOf 0 = some (wr0 .sent) ∧ (wr0 .sent).st = .sent) := by decide +kernel

/-- A read outstanding at the memory port, with a request that waits with it. -/
theorem witness_ReadsCompleted : (let m : Miss := { line := l0, st := .issued, ent := 0, waiters := [req 0], reissue := 0, cls := 2, merge := true, ord := 0 }
    let s := { up with home.ht := [(0, entry (.req (req 2)) .mem)], mp.miss := [(0, m)] }
    s.ring.mpRst = false ∧ s.missOf 0 = some (0, m) ∧ (req 2).opc.toNat ≤ 2 ∧ (entry (.req (req 2)) .mem).passed = false ∧
      (entry (.req (req 2)) .mem).rclm = false) := by decide +kernel

/-- A beat waits while a frequency change is prepared, or made. -/
theorem witness_BeatsWait : (∀ a ∈ [true, false],
    (let s := { up with pwr.req := true, pwr.fstate := if a then .acked else .preparing, mp.rdFifo := [⟨0, 5, false, false, 0, 0⟩] }
     s.coreUp = true ∧ s.pwr.droop = false ∧ s.pwr.req = true ∧ (s.pwr.fstate = .preparing ∨ s.pwr.fstate = .acked) ∧ s.mp.rdFifo ≠ [])) := by
  decide +kernel

theorem witness_CycleWraps : 3 < 160 ∧ wrapping.cycleWhole.wraps 3 = true ∧ wrapping.chained (3 + 1) = false ∧ bit (wrapping.mode 3) 3 = true ∧
    { up with pwr.droop := true, pmc.cnt := (List.replicate 160 0).set 154 (BitVec.allOnes 40) }.cycleWhole.wraps 154 = true := by
  decide +kernel

/-! ### Ports: flits of every kind -/

/-- A flit of one channel for slice 9, for this slice, and for an agent of die 1. -/
def snpTo (own : Bool) (die : Nat) (bcast : Bool) (from_ : Id12) : Flit :=
  snpFlit from_ 0 0 false bcast own (BitVec.ofNat 12 (256 * die)) l0 0 0 false false

/-- An edge slice that forwards die 1, and the same with its transmit queue full. -/
def forwards (n : Nat) : State :=
  { up with ring := { ringOn with tieEdge := true }, lnk.cfg.fwd := 2
            lnk.tx := List.replicate n { waitingFlit with f := passing } }

theorem witness_FlitsOnTheRing :
    (up.ctl.st ≠ .off ∧ (let bad := (flitPar passing ^^^ 1#20) ^^^ flitPar passing
      (bit bad 0 || bit bad 1) = true) ∧ up.coreUp = true) ∧
    (let f := rspFlit false 0x100 ⟨true, 9, 5⟩ 0 0 false 0 0 false 0 0
     (forwards 0).saddleBound f = true ∧ (flitDtyp f && flitDst f = (forwards 0).ring.tieSlice && !flitBcast f) = false ∧ flitVc f ≠ 1 ∧
       (((forwards 0).lnk.sel ++ (forwards 0).lnk.tx).filter fun x => flitVc x.f = flitVc f).length < 64 ∧
       ¬(((forwards 64).lnk.sel ++ (forwards 64).lnk.tx).filter fun x => flitVc x.f = flitVc f).length < 64 ∧
       ((forwards 64).link .east).ins = none ∧ ((forwards 64).link .east).arm = false) := by decide +kernel

/-- The flits for this slice: snoops, responses and data that are awaited, or not. -/
theorem witness_FlitsForThisSlice :
    (let f := snpTo true 0 false 9
     flitVc f = 1 ∧ flitBcast f = false ∧ (flitDtyp f && flitDst f = up.ring.tieSlice && !flitBcast f) = true) ∧
    (let s := { up with home.ht := [(0, asked .snpS false)] }
     let f := rspFlit true 0 ⟨false, 0x010, 0⟩ 0x08 0 false 0 0 false 0 0
     (flitDtyp f && flitDst f = s.ring.tieSlice && !flitBcast f) = true ∧ flitVc f = 2 ∧ (rspType f).toNat ≤ 16 ∧
       s.deadReq (flitName f) = false ∧ s.rspOpen f = true ∧ up.rspOpen f = false ∧
       (let bad := ((flitPar f ^^^ 4#20) ^^^ flitPar f)
        bit bad 0 = false ∧ bit bad 1 = false ∧ (fld bad 2 4 : BitVec 4) ≠ 0)) ∧
    (let s := { up with home.ht := [(0, { asked .snpS false with ans := some 0x0E })] }
     let f := (lineFlits true 0 ⟨true, 0, 0⟩ 0 5 false false 0).headD 0
     flitVc f = 3 ∧ s.isLineData f = true ∧ s.datDead f = false ∧ s.datOpen f = true ∧ up.isLineData f = true ∧ up.datOpen f = false) ∧
    (let f := datFlit true 0 (req 6).name 0 false 1 false false 0 7
     let s := { up with port.rx.resv := [⟨(req 6).name, 1⟩] }
     flitVc f = 3 ∧ s.isLineData f = false ∧ txCount s.port.rx.resv (flitName f) > 0 ∧ txCount up.port.rx.resv (flitName f) = 0 ∧
       txCount up.port.rx.late (flitName f) = 0 ∧ txCount up.port.rx.drop (flitName f) = 0 ∧ isPayload f = true) := by decide +kernel

/-- A broadcast of this slice for entry 0 comes back, and one that it relayed for slice 9. -/
theorem witness_BroadcastsReturn :
    (let f := snpFlit 0 0 0 false true false 0 l0 0 0 false false
     flitVc f = 1 ∧ flitBcast f = true ∧ (flitName f).sty = true ∧ (flitName f).src = up.ring.tieSlice ∧
       up.port.relayed.contains (flitName f) = false ∧
       (let s := { up with home.ht := [(0, { entry (.req (req 1)) .snpU with sop := snpInvalidate, sweep := 1 })] }
        (tabGet s.home.ht (flitName f).txn.toNat).any (fun h => bit h.sweep s.homeDie && !h.sw) = true) ∧
       tabGet up.home.ht (flitName f).txn.toNat = none ∧
       { up with port.relayed := [flitName f] }.port.relayed.contains (flitName f) = true) := by decide +kernel

/-- A DAT turn at an out-link: of five flits that wait, four leave; of one, the turn stays while more may leave. -/
theorem witness_DataTurns : (let dat : OutFlit := { waitingFlit with f := datFlit true 9 ⟨true, 9, 5⟩ 0 false 0 false false 0 7 }
    let s := { up with port.east.inj := { Inj.reset with dat := List.replicate 5 dat, turn := 3 }, port.east.arm := true }
    s.ctl.st ≠ .off ∧ (s.link .east).ins = none ∧
      turnOf (s.link .east).inj.turn (fun v => !((s.link .east).inj.free v).isEmpty) = some 3) := by decide +kernel

/-- Messages ready for both out-links of port 0, before and after east-out has chosen, with those of the arbiters of the memory port. -/
theorem witness_GrantsInTurn :
    (let m (d : Dir) : Msg := { port := 0, cls := 2, vc := 2, flits := [passing], pay := [], link := some d, line := none, sample := false, own := true, sad := false }
     let s (made : Bool) : State := { up with port.ready := [m .east, m .west], port.eastMade := made }
     ((s false).chk.upsets = [] ∧ (s false).arbitrate 0 (((s false).readyAt 0 .east).map fun x => x.2.cls) = some (0, false) ∧
       ((s false).readyAt 0 .east)[0]? = some (0, m .east) ∧ (s false).port.eastMade = false) ∧
     ((s true).arbitrate 0 (((s true).readyAt 0 .west).map fun x => x.2.cls) = some (0, false) ∧
       ((s true).readyAt 0 .west)[0]? = some (1, m .west) ∧ (s true).port.eastMade = true)) ∧
    (fetching.coreUp = true ∧ storing.coreUp = true ∧ storing.chk.upsets = []) := by decide +kernel

/-- A request of each kind that passes its checks, and those that fail for their alignment, their LEN or their payload. -/
theorem witness_Decoded :
    (let r := { req 8 with kfmt := 2, addr := 2, plen := 1 }
     up.isMove r = false ∧ up.ctl.st = .running ∧ r.opc.toNat ≤ 9 ∧ r.op ≤ 10 ∧ r.addr.toNat % 4 ≠ 0 ∧ plenOk r.opc r.plen.toNat = true) ∧
    (let r := { req 8 with kfmt := 3, addr := 4, plen := 1 }
     r.addr.toNat % 8 ≠ 0 ∧ plenOk r.opc r.plen.toNat = true) ∧
    (scan0.opc = 10 ∧ plenOk scan0.opc scan0.plen.toNat = true ∧ { scan0 with len := 1 }.len ≠ 0 ∧ (range 13 0 4).opc.toNat ≤ 14 ∧
      plenOk (range 13 0 4).opc (range 13 0 4).plen.toNat = true) ∧
    (∀ r ∈ [range 11 0 4, range 12 0 4, range 13 0 4, range 14 0 4], (arrived r).coreUp = true ∧ (arrived r).nothingWaits ∧
      (arrived r).nextReq .ring = some (0, ⟨reqFlitOf r, false⟩, r) ∧ (arrived r).decodeCheck r = none) ∧
    (let s := { arrived scan0 with port.rx.pay := (scanAt 4).port.rx.pay }
     s.nextReq .ring = some (0, ⟨reqFlitOf scan0, false⟩, scan0) ∧ s.decodeCheck scan0 = none) ∧
    (let s := { arrived (req 2) with port.rx.req := [⟨reqFlitOf (req 2), true⟩] }
     s.nextReq .ring = some (0, ⟨reqFlitOf (req 2), true⟩, req 2)) ∧
    ((at_ .quiesced).ctl.st ≠ .running ∧ (arrived { req 8 with plen := 1 }).ctl.st = .running) := by decide +kernel

/-! ### The home engine: snoops sent, requests that need none, answers, timers -/

/-- An ATOMIC and a REDUCE that the checks of their chapter accept. -/
def atomic0 : Req := { req 8 with kfmt := 2, plen := 1 }
def reduce0 : Req := { req 9 with kop := 0x18, kfmt := 4, plen := 2 }

/-- A slice whose home engine holds one request, for a line that an agent owns and dies are present at. -/
def taken_ (o : Id12) (pdv : BitVec 16) (r : Req) : State :=
  { waiting r with home.sf := [(0, { tag := 0, space := false, ov := true, own := o, pdv, hdv := 0x10000 })]
                   cfg.knd.lanes := [0xFF, 0xFF, 0xFF, 0xFF] }

theorem witness_SnoopsSent :
    (∀ r ∈ [req 0, req 2], (taken_ 0x130 3 r).undisturbed l0 r ∧ r.agent = some 0x010 ∧ (taken_ 0x130 3 r).answerRoom ∧
      (taken_ 0x130 3 r).ownerOf l0 = some 0x130 ∧ (taken_ 0x130 3 r).isDead 0x130 = false ∧ r.space = false) ∧
    (∀ r ∈ [req 1, req 3, req 6, req 7, atomic0, reduce0], ∀ o ∈ [0x130, 0x010], (taken_ o 3 r).undisturbed l0 r ∧ r.agent = some 0x010 ∧
      (taken_ o 3 r).answerRoom ∧ (taken_ o 3 r).sfFind l0 = some (0, { tag := 0, space := false, ov := true, own := o, pdv := 3, hdv := 0x10000 }) ∧
      r.space = false ∧ r.ext = false) ∧
    (∀ r ∈ [atomic0, reduce0], ((taken_ 0x130 3 r).chapterCheck r).isNone = true) := by
  refine ⟨?_, ?_, ?_⟩ <;> decide +kernel

/-- A request of agent 0x020. -/
def of20 (opc : BitVec 5) : Req := { req opc with name := ⟨false, 0x020, 1⟩ }

/-- An entry of another agent's request, whose snoop has gone to agent 0x010, the line's owner; `f` holds the line, if a frame does. -/
def asking (r : Req) (st : HtSt) (fwd : Bool) (sweep : BitVec 16) : Ht :=
  { entry (.req { r with name := ⟨false, 0x020, 1⟩ }) st with
    own := some 0x010, expect := true, fwd, sop := if st = .snpS then snpShared else snpUnique, sweep }

/-- That entry with the owner's answer at the head of its queue. -/
def replied (h : Ht) (code : Nat) : State :=
  { up with
    home.sf := [(0, { tag := 0, space := false, ov := true, own := 0x010, pdv := 1, hdv := 0x10000 })], home.ht := [(0, h)]
    arr.frames := [(0, frame0)]
    port.rx.rsp := [⟨rspFlit true 0 ⟨false, 0x010, 0⟩ code 0 false 0 0 false 0 0, false⟩]
    port.rx.dat := if code = 0x0E || code = 0x0F then (lineFlits true 0 ⟨true, 0, 0⟩ 0 7 false false 0).map fun f => ⟨f, false⟩ else [] }

/-- A request with a whole line of payload at hand. -/
def withLine (r : Req) : State := { waiting r with port.rx.pay := [⟨r.name, [⟨0, 9, false, 1, false⟩, ⟨1, 0, false, 1, false⟩]⟩] }

/-- Line 0 held in frame 0 and a request for it. -/
def hitBy (r : Req) : State := { withLine r with arr.frames := [(0, frame0)] }

def write0 (mask : BitVec 128) : Req := { req 6 with plen := 2, mask }

theorem witness_ServedAtOnce :
    ([req 0, req 1, req 2, req 3, req 7, write0 1, write0 (BitVec.allOnes 128)].all fun r => decide ((hitBy r).undisturbed l0 r) &&
      r.agent == some 0x010 && (hitBy r).find l0 == some (0, 0) && (hitBy r).sfFind l0 == none &&
      (hitBy r).untracked l0 && (hitBy r).ownerOf l0 == none) = true ∧
    (∀ r, ((hitBy r).sfFree (sfSet l0)).isSome = true ∧ (hitBy r).frame 0 = some frame0) ∧
    ([write0 1, write0 (BitVec.allOnes 128)].all fun r => (hitBy r).payReady r && !payBad r ((hitBy r).payload r) && !r.crv &&
      frame0.fmt == .raw) = true ∧
    (let s := { hitBy (req 0) with home.sf := [(0, { tag := 0, space := false, ov := false, own := 0, pdv := 2, hdv := 0x10000 })] }
     s.undisturbed l0 (req 0) ∧ s.untracked l0 = false ∧ s.ownerOf l0 = none ∧ (s.sfFind l0).isSome = true) ∧
    ((waiting (req 2)).retryFirst ((waiting (req 2)).bankFor (req 2)) (req 2).cls (req 2).since = false) := by
  refine ⟨by decide +kernel, fun _ => ⟨rfl, rfl⟩, ?_, ?_, ?_⟩ <;> decide +kernel

theorem witness_KneadEntered : ∀ r ∈ [atomic0, reduce0],
    (let s := { taken_ 0 0 r with home.sf := [], arr.frames := [(0, frame0)]
                                  knd.lb := [(0, { line := l0, frame := none, key := 0, slot := 0, data := 5, mt := Meta.clear, kn := false, bare := false, vic := none, sel := false })] }
     s.undisturbed l0 r ∧ s.untracked l0 = true ∧ (s.chapterCheck r).isNone = true ∧ (s.lbFind l0).isSome = true ∧ r.op ≠ 0x1A ∧ r.op ≠ 0x1B) := by
  decide +kernel

/-- A final write with its payload; landing on or off, its group free or held. -/
def lands : Req := { final0 with plen := 2, mask := BitVec.allOnes 128, lcnt := 1 }

theorem witness_FinalWrites :
    (let s := withLine lands
     s.undisturbed l0 lands ∧ lands.final = true ∧ s.released lands = none ∧ s.isMove lands = false ∧ s.payReady lands = true ∧
       payBad lands (s.payload lands) = false ∧ lands.crv = false ∧ tabSorted s.land.tab = true ∧ bit s.land.ltLo 0 = false) ∧
    (let s := { withLine lands with land.ltLo := 1, land.tab := [(0, { Land.reset with held := some ⟨lands, 5, false⟩ })] }
     s.undisturbed l0 lands ∧ bit s.land.ltLo 0 = true ∧ (s.landAt 0).held ≠ none) ∧
    (let s := { withLine lands with land.ltLo := 1 }
     s.undisturbed l0 lands ∧ bit s.land.ltLo 0 = true ∧ (s.landAt 0).held = none) := by refine ⟨?_, ?_, ?_⟩ <;> decide +kernel

/-- A move of the buffer-space line 0, in QUIESCED, with a window and a free buffer frame. -/
def moveIn : Req := { move9 with space := true, plen := 2, mask := BitVec.allOnes 128 }

theorem witness_MoveReceived : (let s := { at_ .quiesced with
      home.q := [moveIn], port.rx.pay := (withLine moveIn).port.rx.pay, cfg.arr.bufw := 4, cfg.arr.cairnw := 4, cfg.pin.windows := [⟨0, 0, 2⟩]
      cfg.pin.quota := List.replicate 16 100 }
    s.undisturbed b0 moveIn ∧ s.released moveIn = none ∧ s.isMove moveIn = true ∧ b0.space = true ∧ s.untracked b0 = true ∧
      s.payReady moveIn = true ∧ payBad moveIn (s.payload moveIn) = false ∧ moveIn.crv = false ∧ s.findIn (s.bankFor moveIn) b0 = none ∧
      s.pinClass b0 = some 2 ∧ s.use 2 < s.quota 2 ∧ s.freeFrame .buffer (s.bankFor moveIn) (setOf b0) = some 12) := by decide +kernel

/-- The owner's answer to a request of the kind, with a code, ends the wait of its entry. -/
def ends (n : BitVec 5) (st : HtSt) (sweep : BitVec 16) (code : Nat) : Bool :=
  let h := asking (req n) st true sweep
  let s := replied h code
  decide (s.awaitsOne 0 h (of20 n) 0x020 0x010) && s.find l0 == some (0, 0) && !s.drained && s.lbFind l0 == none &&
    s.rspAt (fun g => rspType g = BitVec.ofNat 5 code) == some (.ring, rspFlit true 0 ⟨false, 0x010, 0⟩ code 0 false 0 0 false 0 0)

theorem witness_AnswersEndTheWait : ([0x08, 0x09, 0x0A, 0x0B, 0x0E].all fun code => ends 0 .snpS 0 code && ends 2 .snpS 0 code) = true ∧
    ([0x0C, 0x0D, 0x0F].all fun code => ends 1 .snpU 0 code && ends 1 .snpU 2 code) = true := by decide +kernel

theorem witness_AnswersWithData : (let s := replied (asking (req 0) .snpS true 0) 0x0E
     (s.datPart (s.snoopName 0) 0).isSome = true ∧ (s.datPart (s.snoopName 0) 1).isSome = true) ∧
    (let h := { entry (.binv 0 2) .binv with own := some 0x010, expect := true, sop := snpUnique }
     let s := replied h 0x08
     s.awaitsOwner 0 h 0x010 ∧ h.st = .binv ∧ h.why = .binv 0 2 ∧ h.sweep = 0) := by decide +kernel

/-- An entry whose owner does not answer. -/
def unanswered (n : BitVec 5) : Ht := { asking (req n) (if n = 1 then .snpU else .snpS) true 0 with timer := true }
def silent (n : BitVec 5) : State := { replied (unanswered n) 0 with port.rx.rsp := [] }

theorem witness_OwnerMissing : ([(0 : BitVec 5), 1, 2].all fun n => decide ((silent n).alone 0 (unanswered n)) &&
    decide ((silent n).awaitsOne 0 (unanswered n) (of20 n) 0x020 0x010) && (silent n).timed (unanswered n) &&
    (unanswered n).sop != snpInvalidate && !(silent n).drained && (silent n).find l0 == some (0, 0) &&
    ((silent n).sfFind l0).any fun x => x.2.pdv != 0) = true := by decide +kernel

theorem witness_TimeoutsAndReclaims :
    (let h := { entry (.req { of20 6 with plen := 2 }) .wb with timer := true }
     let s := { up with home.ht := [(0, h)] }
     s.alone 0 h ∧ h.st = .wb ∧ s.timed h = true) ∧
    (let h := { entry (.req (of20 1)) .snpU with sop := snpInvalidate, sweep := 8, timer := true }
     let s := { up with home.ht := [(0, h)], home.sf := [(0, { tag := 0, space := false, ov := false, own := 0, pdv := 8, hdv := 0x10000 })] }
     s.alone 0 h ∧ s.timed h = true ∧ h.expect = false ∧ s.relayed h ≠ 0) ∧
    (let y : Sf := { tag := 0, space := false, ov := true, own := 0x010, pdv := 3, hdv := 0x10000 }
     let s := { reclaiming with home.sf := [(0, y)] }
     s.calm ∧ s.answerRoom ∧ s.ctl.st = .running ∧ s.home.walk = true ∧ s.opensClosed = true ∧ s.home.ht = [] ∧ s.home.walkSet < 8191 ∧
       s.deadKeys s.home.walkSet = [0] ∧ tabGet s.home.sf 0 = some y ∧ s.sfFind (y.line 0) = some (0, y) ∧
       (∃ d ∈ s.home.dead, d.valid = true ∧ d.done = false ∧ d.left > 1)) := by
  refine ⟨?_, ?_, ?_⟩ <;> decide +kernel

/-! ### The memory port, arrays and moves: failures -/

/-- The outstanding read with some reissues done. -/
def flown (n : Nat) : State :=
  { fetching with mp.miss := [(0, { line := l0, st := .issued, ent := 0, waiters := [], reissue := n, cls := 2, merge := true, ord := 0 })] }

/-- Beats of tag 0: good with its crust, with a wrong crust, with a data word that fails, with a tag word that fails. -/
def beat (crv : Bool) (c : Word) (flip : BitVec 34) : RdBeat := ⟨0, 5, false, crv, c, beatPar 0 5 false crv c ^^^ flip⟩

theorem witness_BeatsOfAllKinds :
    (∀ crv c, (beat crv c 0).bad = 0) ∧ (∃ c, crust l0 5 ≠ c) ∧
    (bit (0 : BitVec 34) 33 = false ∧ (beat false 0 1).bad ≠ 0 ∧ bit (beat false 0 1).bad 33 = false ∧ bit (beat false 0 (1#34 <<< 33)).bad 33 = true) ∧
    ((flown 0).starts ∧ (flown 0).chk.upsets = [] ∧ (flown 0).rdRdy = true ∧ (flown 0).awaits (0 : Byte).toNat = true ∧
      (flown 4).awaits (0 : Byte).toNat = true ∧ (tabGet (flown 4).mp.miss 0).any (fun m => m.reissue ≥ 4) = true) ∧
    (∀ a ∈ [true, false], (let s := { flown 0 with pwr.fstate := if a then .preparing else .acked
                                                   mp.rdFifo := List.replicate (if a then 8 else 0) ⟨1, 5, false, false, 0, 0⟩ }
      ¬s.starts ∧ s.awaits (0 : Byte).toNat = true ∧ (s.mp.rdFifo.length < 8 ∨ a = true))) := by
  refine ⟨fun _ _ => by simp [beat, RdBeat.bad], ⟨crust l0 5 + 1, by simp⟩, ?_, ?_, ?_⟩ <;> decide +kernel

/-- The completion that a write holds back, on the write itself or on the entry that stays open for it. -/
def comp0 : Comp := { r := req 6, rtype := 0, rcode := 0, pois := false, grant := 0, scopew := false, rval := 0, data := none }
def lastError (onEntry : Bool) : State :=
  { written true 4 with
    mp.hold := [{ wr0 .sent with wdSent := true, errs := 4, comps := if onEntry then [] else [comp0] }]
    home.ht := if onEntry then [(0, { entry (.req (req 6)) .mem with tw := true, tags := [0], comps := [comp0] })] else [] }

theorem witness_WriteFailsForGood :
    ((lastError false).wrOf (0 : BitVec 6).toNat = some { wr0 .sent with wdSent := true, errs := 4, comps := [comp0] } ∧
      (∀ e ∈ (lastError false).home.ht, e.2.tw = false) ∧ comp0.data = none ∧ comp0.rval = 0) ∧
    ((lastError true).home.ht = [(0, { entry (.req (req 6)) .mem with tw := true, tags := [0], comps := [comp0] })] ∧
      (lastError true).mp.flushWr = [] ∧ (lastError true).mp.flushWd = []) := by decide +kernel

/-- Scrub at a frame one of whose data words is struck. -/
def struckAt : State := { scrubs with arr.frames := [(0, frame0)], arr.struck := [(0, (0, .ceData 3))] }

theorem witness_ScrubMeetsAWord : struckAt.scrubbing = true ∧ struckAt.starts ∧ struckAt.chk.upsets = [] ∧ struckAt.chk.pos < 12288 ∧
    struckAt.scrubKey 0 = 0 ∧ bit struckAt.ctl.insvc 0 = true ∧ struckAt.scrubSkips 0 = false ∧ struckAt.frame 0 = some frame0 ∧
    frame0.fmt ≠ .rframe ∧ struckAt.setOfFrame 0 = none ∧ struckAt.slotOfWord 0 (3 : BitVec 4).toNat = some 0 := by
  refine ⟨?_, ?_, ?_, ?_, ?_, ?_, ?_, rfl, ?_, ?_, ?_⟩ <;> decide +kernel

/-- A move of a memory-space line refused with ERR_HOME. -/
theorem witness_MoveToMemory :
    ((moving 1 false false 1).rspAt (moving 1 false false 1).moveComp).any (fun p => (rspCode p.2).toNat == 1 && (flitName p.2).txn.toNat == 0) = true ∧
    (moving 1 false false 1).home.ht = [(0, { (Ht.blank l0 (.move 1 false (req 6)) .move) with data := some (5, false) })] ∧
    (moving 1 false false 1).freeTags ≠ [] := by refine ⟨?_, ?_, ?_⟩ <;> decide +kernel

/-! ### Fused scans and the saddle link -/

/-- The descriptor of a fused scan over the same row, its values at a byte address. -/
def descFu (vbase : Nat) : Body :=
  pack 512 [(0, 512), (53, 1), (56, 4), (60, 4), (64, vbase), (116, 3), (119, 3), (128, 1), (192, 0x3F800000)]

/-- That scan at its row on column 0, its key lines held, and a map that gives the loaf of byte 1,536 to slice 5. -/
def jobFu (vbase : Nat) : ScanJob :=
  { job true 0 with desc := descFu vbase, cols := { Col.fresh 0 64 with started := true } :: List.replicate 3 (Col.fresh 1 64) }
def folding (vbase : Nat) : State := { scoring with knd.scans := [jobFu vbase], cfg.mapA := [0, 0, 0, 5] }

/-- The key row of that scan as it is read, and then its value row. -/
def keyRow (vbase : Nat) : State × Option (Nat × Bool) :=
  (folding vbase).readRow (jobFu vbase) (descKey (descFu vbase) 0) (rowBytes (descKfmt (descFu vbase)) (descDim (descFu vbase))) .ok

theorem witness_FusedRows : ([512, 1536].all fun v => decide (folding v).starts && (folding v).coreUp &&
      (folding v).scanOn (0 : BitVec 2).toNat == some (0, jobFu v) && (folding v).firstNeed (jobFu v) 0 == none &&
      (folding v).rowServed (jobFu v) 0 && (folding v).cfg.chk.level.toNat < 2 && descFused (jobFu v).desc && (jobFu v).cols.length == 4 &&
      (keyRow v).2.isSome && (folding v).valueHere (jobFu v) 0 == (v == 512)) = true ∧
    ((keyRow 512).1.readRow (jobFu 512) (descVal (descFu 512) 0) (rowBytes (descVfmt (descFu 512)) (descDim (descFu 512))) .ok).2.isSome = true := by
  refine ⟨?_, ?_⟩ <;> decide +kernel

/-- A slice whose link trains, rates up to 2 and every width allowed on both sides. -/
def trains (st : LkSt) (cands : List (BitVec 2)) (best : Option Mode) : State :=
  { linked st with lnk.cfg.cap := 0x3E, lnk.pcap := 0x3E, lnk.cands := cands, lnk.best := best, lnk.width3 := 3, lnk.phyRate := cands.headD 0 }

/-- The mode of all lanes at rate 2, and of lanes 0 and 1 at rate 1. -/
def wide : Mode := { rate := 2, group := 0xFF, lanes := 0xFF, width := 3, base := 0, fec := true, ssc := false }

theorem witness_TrainingGoesOn :
    ((trains .capex [] none).lnk.lost = false ∧ (trains .capex [] none).ctl.st ≠ .linking ∧ (trains .capex [] none).lnk.phyReq = false ∧
      bestGroup ((trains .capex [] none).lnk.usable &&& (0x7F : Byte)) (fld (trains .capex [] none).lnk.cfg.cap 2 4 &&& fld (0x3E : Word) 2 4) = some (2, 0)) ∧
    (let s := trains .prbs [1] none
     s.lnk.st = .prbs ∧ s.lnk.phyRate = 1 ∧
       bestGroup (s.lnk.usable &&& prbsMask (s.fecAt (1 : BitVec 2).toNat) (List.replicate 8 0) &&& (0x0F : Byte)) s.widths = some (2, 0)) ∧
    (let s := trains .prbs [2, 1, 0] none
     let best := betterMode s.lnk.best (s.prbsResult 2 (s.lnk.usable &&& prbsMask (s.fecAt (2 : BitVec 2).toNat) (List.replicate 8 0) &&& (0x03 : Byte)))
     s.lnk.cands = [2, 1, 0] ∧ s.lnk.phyReq = false ∧
       rateValue (1 : BitVec 2).toNat s.lnk.width3.toNat (s.fecAt (1 : BitVec 2).toNat) > (best.map Mode.value).getD 0) ∧
    (∀ r ∈ [(2 : BitVec 2), 1], (let s := trains .prbs [r, 0] (if r = 1 then some wide else none)
      let best := betterMode s.lnk.best (s.prbsResult r (s.lnk.usable &&& prbsMask (s.fecAt r.toNat) (List.replicate 8 0) &&& (0xFF : Byte)))
      ¬(rateValue (0 : BitVec 2).toNat s.lnk.width3.toNat (s.fecAt (0 : BitVec 2).toNat) > (best.map Mode.value).getD 0) ∧ best = some wide ∧
        (r = 2 → wide.rate = s.lnk.phyRate) ∧ (r = 1 → wide.rate ≠ s.lnk.phyRate))) := by
  refine ⟨?_, ?_, ?_, ?_⟩ <;> decide +kernel

/-- The header of a frame as the partner sends it, its CRC right. -/
def hdrOf (typ cnt cvc ccnt : Nat) (seq ack : BitVec 6) (slots : List Flit) : BitVec 40 := withCrc (frameHdr typ seq ack cnt cvc ccnt) slots

/-- Its fields are those it was made of, and its CRC is right, whatever the CRC is. -/
theorem hdr_fields {w : Nat} (h : BitVec 24) (slots : List Flit) (i : Nat) (hi : i + w ≤ 24) :
    (fld (withCrc h slots) i w : BitVec w) = fld h i w := by
  apply BitVec.eq_of_getLsbD_eq
  intro k hk
  simp only [fld, withCrc, BitVec.getLsbD_extractLsb', BitVec.getLsbD_or, BitVec.getLsbD_setWidth, BitVec.getLsbD_shiftLeft]
  have : i + k < 24 := by omega
  simp [hk, this]
  omega

theorem hdr_bit (h : BitVec 24) (slots : List Flit) (i : Nat) (hi : i < 24) : bit (withCrc h slots) i = bit h i := by
  simp only [bit, withCrc, BitVec.getLsbD_or, BitVec.getLsbD_setWidth, BitVec.getLsbD_shiftLeft]
  simp [hi]
  omega

theorem hdr_crc (h : BitVec 24) (slots : List Flit) : fld (withCrc h slots) 24 16 = frameCrc (fld (withCrc h slots) 0 24) slots := by
  have h0 : (fld (withCrc h slots) 0 24 : BitVec 24) = h := by
    rw [hdr_fields h slots 0 (by decide)]
    apply BitVec.eq_of_getLsbD_eq
    intro k hk
    simp [fld, hk]
  rw [h0]
  apply BitVec.eq_of_getLsbD_eq
  intro k hk
  simp only [fld, withCrc, BitVec.getLsbD_extractLsb', BitVec.getLsbD_or, BitVec.getLsbD_setWidth, BitVec.getLsbD_shiftLeft]
  have h1 : ¬ 24 + k < 24 := by omega
  have h2 : 24 + k < 40 := by omega
  have h3 : k < 40 := by omega
  simp [hk, h1, h2, h3]

/-- Frames of every kind: data without flits, with one, a replay request, and a control frame, each with its CRC right. -/
theorem witness_HeadersOfFrames : (∀ slots,
      (bit (hdrOf 0 0 2 3 0 2 slots) 1 = false ∧ bit (hdrOf 0 0 2 3 0 2 slots) 0 = false ∧ bit (hdrOf 1 0 2 3 0 2 slots) 0 = true ∧
        bit (hdrOf 2 0 0 1 5 0 slots) 1 = true ∧ bit (hdrOf 2 0 0 1 5 0 slots) 0 = false) ∧
      ((fld (hdrOf 0 0 2 3 0 2 slots) 14 5 : BitVec 5).toNat = 0 ∧ (fld (hdrOf 0 1 0 0 1 0 slots) 14 5 : BitVec 5).toNat = 1 ∧
        (fld (hdrOf 0 1 0 0 1 0 slots) 2 6 : BitVec 6) = 1 ∧ (fld (hdrOf 1 0 2 3 0 2 slots) 8 6 : BitVec 6) = 2) ∧
      fld (hdrOf 0 1 0 0 1 0 slots) 24 16 = frameCrc (fld (hdrOf 0 1 0 0 1 0 slots) 0 24) slots) ∧
    (let s := { linked .up with lnk.replay := [(3, ([], 0))] }
     s.lnk.replay = [((2 : BitVec 6) + 1, ([], 0))] ∧ 0 < 3) := by
  refine ⟨fun slots => ⟨?_, ?_, hdr_crc _ _⟩, by decide +kernel⟩
  · unfold hdrOf
    refine ⟨?_, ?_, ?_, ?_, ?_⟩ <;> rw [hdr_bit _ _ _ (by decide)] <;> decide
  · unfold hdrOf
    refine ⟨?_, ?_, ?_, ?_⟩ <;> rw [hdr_fields _ _ _ (by decide)] <;> decide

/-- A link in service at lane markers of SEQ 5, and its partner's control frame. -/
def marked : CtlFields := { marks := laneMarkers 0xFF 5, credits := pack 40 [(0, 3), (10, 2)], good := 0xFF, fault := 0, newSet := 0, width := 0 }

theorem witness_FramesComeAndGo :
    ((linked .up).lnk.txFifo.length < 16 ∧ (linked .up).starts ∧ (linked .up).lnk.replay.length < 32 ∧ (linked .up).lnk.retained + 1 ≤ 512 ∧
      flitVc waitingFlit.f ≠ 0 ∧ isPayload waitingFlit.f = false ∧ nth (linked .up).lnk.credit (flitVc waitingFlit.f) 0 ≠ 0 ∧ waitingFlit.bad = 0) ∧
    ((linked .up).lnk.credit.length = 4 ∧ (linked .up).lnk.owed.length = 4 ∧ (linked .up).lnk.ack + 1 = 1 ∧ (linked .up).ring.spRst = false) ∧
    ((flitDtyp passing && flitDst passing = (linked .up).ring.tieSlice) = false ∧ flitVc passing ≠ 1 ∧
      (let f := reqFlitOf (req 2)
       (flitDtyp f && flitDst f = (linked .up).ring.tieSlice) = true ∧ flitVc f = 0 ∧ (linked .up).coreUp = true ∧ (linked .up).reqRoom f = true)) ∧
    (∀ st ∈ [LkSt.up, .align, .retrain], ∀ l < 8, bit (linked st).ctlLanes l = true → nth marked.marks l 0 = laneMarker l 5) := by
  refine ⟨?_, ?_, ?_, ?_⟩ <;> decide +kernel

end Sys2Proof.Tests
end

/-! The registers of the ring station and the read of the POWCYC pair (02 R116 and R117). -/
namespace Sys2Proof.Machine

/-! ### Registers of the ring station's domain -/

/-- An offset of the ring station's domain reads as that domain says: no later table of the map is asked. -/
theorem regRead_of_readRing {s : State} {o : Nat} {v : Word} (h : s.readRing o = some v) : s.regRead o = some v := by
  simp [State.regRead, h]

/-- In every state, FENCED included, a read performs at an offset of the ring station's domain that holds a register (R136, R465). -/
theorem performs_read_of_readRing {s : State} {o : Nat} {v : Word} (h : s.readRing o = some v) (hring : ringReg o = true)
    (huser : userWindow o = false) : s.performs false o = true := by
  simp [State.performs, regRead_of_readRing h, hring, huser]

/-- A read with good parity of a register of the ring station's domain: its side effect, and its word at the port. -/
theorem readAcc_of_readRing {s : State} {o : Nat} {v : Word} (f : State → State) (ho : 4 * (o / 4 % 16384) = o)
    (h : s.readRing o = some v) (hring : ringReg o = true) (huser : userWindow o = false) :
    s.readAcc (goodRead o) (wordAddr o) f = { f s with rg := ⟨v, parity v, false, true⟩ } := by
  simp [readAcc_good, ho, performs_read_of_readRing h hring huser, regRead_of_readRing h]

/-! ### The POWCYC pair -/

theorem readRing_powcycLo (s : State) : s.readRing 0x0020 = some (s.ring.powcyc.extractLsb' 0 32) := rfl

theorem readRing_powcycHi (s : State) : s.readRing 0x0024 = some s.ring.powHi := rfl

/-- The command is the access to CFG_POWCYC_LO with the latch as its side effect. -/
theorem exec_powcycLoRead (apar : Bool) (s : State) :
    exec (.powcycLoRead apar) s = s.reg (s.readAcc apar (wordAddr 0x0020) State.latchPow) := rfl

/-- Settles O14: the access reaches the port outside OFF, performs in the ring station's domain, and the low half it returns and the high
half it latches are of the one POWCYC of its cycle; CFG_POWCYC_HI reads the latch. -/
theorem powcycPairRead : Obligations.PowcycPairRead := by
  intro s hclocked
  refine ⟨?_, fun t => regRead_of_readRing (readRing_powcycHi t)⟩
  have hread := readAcc_of_readRing State.latchPow (by decide) (readRing_powcycLo s) (by decide) (by decide)
  unfold Carries
  rw [exec_powcycLoRead, reg_on hclocked, hread]
  rfl

end Sys2Proof.Machine

/-! What a write of ST_CMD or ST_IMG_DATA does where R152 rejects it. -/
namespace Sys2Proof.Machine

variable {s : State}

/-- A command that is not listed for the present state, and a reserved OP, is rejected, in test mode too (R81, R151, R152): each OP has its
effect under the guard that lists it, and the rejection behind that guard. -/
theorem command_of_not_legal {op : BitVec 4} (hrej : s.legal op.toNat = false) : s.command op = s.stateErr op false := by
  unfold State.command
  split
  case isTrue htst => rfl
  case isFalse htst =>
    split
    case h_8 => rfl
    all_goals
      next hop =>
        rw [hop] at hrej
        exact if_neg (by simpa [State.legal] using hrej)

/-- Outside the receiving phase of LOADING an image word is rejected (R152). -/
theorem imgData_of_not_receiving (hphase : s.ctl.st ≠ .loading ∨ s.ctl.phase ≠ .receiving) (d : Word) :
    s.imgData d = s.stateErr 0 true := by
  have hguard : ¬ (decide (s.ctl.st = .loading) && decide (s.ctl.phase = .receiving)) = true := by
    rw [Bool.and_eq_true, decide_eq_true_eq, decide_eq_true_eq]
    rintro ⟨hst, hph⟩
    exact hphase.elim (fun h => h hst) (fun h => h hph)
  exact if_neg hguard

/-- An access with SL_RG_WR at 1 is the write of its word. -/
theorem exec_registerWrite_write (p : Par) (a : BitVec 14) (d hw : Word) (s : State) :
    exec (.registerWrite ⟨true, p⟩ a d hw) s = s.reg (s.writeAcc p a d hw) := rfl

/-- The command is the write of ST_IMG_DATA. -/
theorem exec_imageWord (p : Par) (d : Word) (s : State) :
    exec (.imageWord p d) s = s.reg (s.writeAcc p (wordAddr 0x0408) d 0) := rfl

/-- Settles O20: with the core out of reset both writes perform, so SL_RG_ERR is 0, and what each does is the rejection alone, which sets
ST_REJ and ST_IRQ.STATE_ERR. -/
theorem stateErrors : Obligations.StateErrors := by
  intro d s hup
  refine ⟨fun hrej => ?_, fun hphase => ?_⟩
  · unfold Carries
    rw [exec_registerWrite_write, reg_stCmd hup, fld, command_of_not_legal hrej]
    rfl
  · unfold Carries
    rw [exec_imageWord, reg_stImgData hup, imgData_of_not_receiving hphase]
    rfl

end Sys2Proof.Machine

/-! What a counter adds in a cycle, by the MODE field of its mode word (R452). -/
namespace Sys2Proof.Machine

variable {m : BitVec 16}

/-- COUNT. -/
theorem adds_of_mode_count (hmode : m.extractLsb' 0 2 = 0) (i : Nat) (now prev : List PmcEv) :
    adds m i now prev = occurs m i now := by
  rw [adds, fld, hmode]
  rfl

/-- LEVEL. -/
theorem adds_of_mode_level (hmode : m.extractLsb' 0 2 = 1) (i : Nat) (now prev : List PmcEv) :
    adds m i now prev = num (occurs m i now != 0) := by
  rw [adds, fld, hmode]
  rfl

/-- EDGE: the cycle before is judged by the same event and qualifier. -/
theorem adds_of_mode_edge (hmode : m.extractLsb' 0 2 = 2) (i : Nat) (now prev : List PmcEv) :
    adds m i now prev = num (occurs m i now != 0 && occurs m i prev = 0) := by
  rw [adds, fld, hmode]
  rfl

/-- Settles O37, a mode at a time: in LEVEL and EDGE the model adds the truth value of "not 0 occurrences", which is the rule's k ≥ 1. -/
theorem countingModes : Obligations.CountingModes := by
  intro m i now prev
  refine ⟨fun hcount => adds_of_mode_count hcount i now prev, fun hlevel => ?_, fun hedge => ?_⟩
  · rw [adds_of_mode_level hlevel]
    simp [num, Nat.one_le_iff_ne_zero]
  · rw [adds_of_mode_edge hedge]
    simp [num, Nat.one_le_iff_ne_zero]

end Sys2Proof.Machine
